-- ==== Sys2Proof/Word.lean ====
section
/-! DEFINITION. The word types of the Chip8 CORE (00_scope.md R9: every quantity is unsigned). -/

namespace Sys2Proof

/-- A memory byte or a V register: 8 bits (10_state.md R20, 20_memory.md R60). -/
abbrev Byte := BitVec 8

/-- An instruction word, I, PC or a stack entry: 16 bits (10_state.md R23, R24, R27). -/
abbrev Word := BitVec 16

/-- One digit of an instruction pattern: a register index or a nibble count (00_scope.md R9). -/
abbrev Nibble := BitVec 4

/-- A literal address NNN: 12 bits (30_encoding.md R91). -/
abbrev Addr12 := BitVec 12

end Sys2Proof
end

