-- ==== Sys2Proof/Syntax.lean ====
section
/-! DEFINITION. The instruction set: one constructor for each row of spec/opcode_table.json, in the table's order
(30_encoding.md R96). -/

namespace Sys2Proof

/-- A decoded instruction with its typed fields (30_encoding.md R91, R94). Every value of every field of a defined
instruction is legal (R93); `unknown` carries the whole word (46_unknown.md R190). -/
inductive Instr where
  /-- 00E0 CLS -/
  | cls
  /-- 00EE RET -/
  | ret
  /-- 1NNN JP -/
  | jp (nnn : Addr12)
  /-- 2NNN CALL -/
  | call (nnn : Addr12)
  /-- 3XNN SE_IMM -/
  | seImm (x : Nibble) (nn : Byte)
  /-- 4XNN SNE_IMM -/
  | sneImm (x : Nibble) (nn : Byte)
  /-- 5XY0 SE_REG -/
  | seReg (x y : Nibble)
  /-- 6XNN LD_IMM -/
  | ldImm (x : Nibble) (nn : Byte)
  /-- 7XNN ADD_IMM -/
  | addImm (x : Nibble) (nn : Byte)
  /-- 8XY0 MOV -/
  | mov (x y : Nibble)
  /-- 8XY1 OR -/
  | or (x y : Nibble)
  /-- 8XY2 AND -/
  | and (x y : Nibble)
  /-- 8XY3 XOR -/
  | xor (x y : Nibble)
  /-- 8XY4 ADD -/
  | add (x y : Nibble)
  /-- 8XY5 SUB -/
  | sub (x y : Nibble)
  /-- 8XY6 SHR -/
  | shr (x y : Nibble)
  /-- 8XY7 SUBN -/
  | subn (x y : Nibble)
  /-- 8XYE SHL -/
  | shl (x y : Nibble)
  /-- 9XY0 SNE_REG -/
  | sneReg (x y : Nibble)
  /-- ANNN LD_I -/
  | ldI (nnn : Addr12)
  /-- BNNN JP_V0 -/
  | jpV0 (nnn : Addr12)
  /-- CXNN RND -/
  | rnd (x : Nibble) (nn : Byte)
  /-- DXYN DRW -/
  | drw (x y n : Nibble)
  /-- EX9E SKP -/
  | skp (x : Nibble)
  /-- EXA1 SKNP -/
  | sknp (x : Nibble)
  /-- FX07 GET_DT -/
  | getDt (x : Nibble)
  /-- FX0A WAIT_KEY -/
  | waitKey (x : Nibble)
  /-- FX15 SET_DT -/
  | setDt (x : Nibble)
  /-- FX18 SET_ST -/
  | setSt (x : Nibble)
  /-- FX1E ADD_I -/
  | addI (x : Nibble)
  /-- FX29 FONT -/
  | font (x : Nibble)
  /-- FX33 BCD -/
  | bcd (x : Nibble)
  /-- FX55 STM -/
  | stm (x : Nibble)
  /-- FX65 LDM -/
  | ldm (x : Nibble)
  /-- every other word: UNKNOWN -/
  | unknown (w : Word)
  deriving DecidableEq, Repr

end Sys2Proof
end

