-- ==== Sys2Proof/Decode.lean ====
section
/-! DEFINITION. Fetching order of an instruction's bytes, the decoder (30_encoding.md R91, R94, R95) and the encoder
(R92, R104). -/

namespace Sys2Proof

/-- The major opcode w[15:12] (R91). -/
def fieldOp (w : Word) : Nibble := w.extractLsb' 12 4
/-- The field X = w[11:8] (R91). -/
def fieldX (w : Word) : Nibble := w.extractLsb' 8 4
/-- The field Y = w[7:4] (R91). -/
def fieldY (w : Word) : Nibble := w.extractLsb' 4 4
/-- The field N = w[3:0] (R91). -/
def fieldN (w : Word) : Nibble := w.extractLsb' 0 4
/-- The field NN = w[7:0] (R91). -/
def fieldNN (w : Word) : Byte := w.extractLsb' 0 8
/-- The field NNN = w[11:0] (R91). -/
def fieldNNN (w : Word) : Addr12 := w.extractLsb' 0 12

/-- The rows with major opcode 8, by the minor opcode N (R95). -/
def decode8 (w : Word) : Instr :=
  match (fieldN w).toNat with
  | 0x0 => .mov (fieldX w) (fieldY w)
  | 0x1 => .or (fieldX w) (fieldY w)
  | 0x2 => .and (fieldX w) (fieldY w)
  | 0x3 => .xor (fieldX w) (fieldY w)
  | 0x4 => .add (fieldX w) (fieldY w)
  | 0x5 => .sub (fieldX w) (fieldY w)
  | 0x6 => .shr (fieldX w) (fieldY w)
  | 0x7 => .subn (fieldX w) (fieldY w)
  | 0xE => .shl (fieldX w) (fieldY w)
  | _ => .unknown w

/-- The rows with major opcode F, by the minor opcode NN (R95). -/
def decodeF (w : Word) : Instr :=
  match (fieldNN w).toNat with
  | 0x07 => .getDt (fieldX w)
  | 0x0A => .waitKey (fieldX w)
  | 0x15 => .setDt (fieldX w)
  | 0x18 => .setSt (fieldX w)
  | 0x1E => .addI (fieldX w)
  | 0x29 => .font (fieldX w)
  | 0x33 => .bcd (fieldX w)
  | 0x55 => .stm (fieldX w)
  | 0x65 => .ldm (fieldX w)
  | _ => .unknown w

/-- The decode algorithm of R95: total, exact on every literal digit (R94, log 22), with no side effect. -/
def decode (w : Word) : Instr :=
  match (fieldOp w).toNat with
  | 0x0 => if w = 0x00E0#16 then .cls else if w = 0x00EE#16 then .ret else .unknown w
  | 0x1 => .jp (fieldNNN w)
  | 0x2 => .call (fieldNNN w)
  | 0x3 => .seImm (fieldX w) (fieldNN w)
  | 0x4 => .sneImm (fieldX w) (fieldNN w)
  | 0x5 => if fieldN w = 0#4 then .seReg (fieldX w) (fieldY w) else .unknown w
  | 0x6 => .ldImm (fieldX w) (fieldNN w)
  | 0x7 => .addImm (fieldX w) (fieldNN w)
  | 0x8 => decode8 w
  | 0x9 => if fieldN w = 0#4 then .sneReg (fieldX w) (fieldY w) else .unknown w
  | 0xA => .ldI (fieldNNN w)
  | 0xB => .jpV0 (fieldNNN w)
  | 0xC => .rnd (fieldX w) (fieldNN w)
  | 0xD => .drw (fieldX w) (fieldY w) (fieldN w)
  | 0xE =>
    if fieldNN w = 0x9E#8 then .skp (fieldX w)
    else if fieldNN w = 0xA1#8 then .sknp (fieldX w)
    else .unknown w
  | _ => decodeF w

/-- The word of two fetched bytes: the byte at the lower address is bits 15 to 8 (20_memory.md R64, R65). -/
def wordOfBytes (hi lo : Byte) : Word := hi ++ lo

/-- The byte of a word that stands at the lower address (R65). -/
def highByte (w : Word) : Byte := w.extractLsb' 8 8

/-- The byte of a word that stands at the higher address (R65). -/
def lowByte (w : Word) : Byte := w.extractLsb' 0 8

/-- Why a byte sequence holds no instruction: every word decodes (R94), so only a missing byte is a reason. -/
inductive DecodeRefusal where
  /-- fewer than the two bytes of an instruction (R90) -/
  | truncated
  deriving DecidableEq, Repr

/-- The first instruction of a byte sequence, and the bytes after it (R90: every instruction is two bytes). -/
def decodeBytes : List Byte → Except DecodeRefusal (Instr × List Byte)
  | hi :: lo :: rest => .ok (decode (wordOfBytes hi lo), rest)
  | _ => .error .truncated

/-- A word of format ADDR (R92). -/
def encodeAddr (op : Nibble) (nnn : Addr12) : Word := op ++ nnn
/-- A word of format REG_IMM or REG_FN: an opcode, X and a byte that is NN or the minor opcode (R92). -/
def encodeRegByte (op x : Nibble) (nn : Byte) : Word := op ++ x ++ nn
/-- A word of format REG_REG or REG_REG_N: an opcode, X, Y and a nibble that is the minor opcode or N (R92). -/
def encodeRegReg (op x y n : Nibble) : Word := op ++ x ++ y ++ n

/-- The word of an instruction, from the operand syntax table of R104. -/
def encode : Instr → Word
  | .cls => 0x00E0
  | .ret => 0x00EE
  | .jp nnn => encodeAddr 0x1 nnn
  | .call nnn => encodeAddr 0x2 nnn
  | .seImm x nn => encodeRegByte 0x3 x nn
  | .sneImm x nn => encodeRegByte 0x4 x nn
  | .seReg x y => encodeRegReg 0x5 x y 0x0
  | .ldImm x nn => encodeRegByte 0x6 x nn
  | .addImm x nn => encodeRegByte 0x7 x nn
  | .mov x y => encodeRegReg 0x8 x y 0x0
  | .or x y => encodeRegReg 0x8 x y 0x1
  | .and x y => encodeRegReg 0x8 x y 0x2
  | .xor x y => encodeRegReg 0x8 x y 0x3
  | .add x y => encodeRegReg 0x8 x y 0x4
  | .sub x y => encodeRegReg 0x8 x y 0x5
  | .shr x y => encodeRegReg 0x8 x y 0x6
  | .subn x y => encodeRegReg 0x8 x y 0x7
  | .shl x y => encodeRegReg 0x8 x y 0xE
  | .sneReg x y => encodeRegReg 0x9 x y 0x0
  | .ldI nnn => encodeAddr 0xA nnn
  | .jpV0 nnn => encodeAddr 0xB nnn
  | .rnd x nn => encodeRegByte 0xC x nn
  | .drw x y n => encodeRegReg 0xD x y n
  | .skp x => encodeRegByte 0xE x 0x9E
  | .sknp x => encodeRegByte 0xE x 0xA1
  | .getDt x => encodeRegByte 0xF x 0x07
  | .waitKey x => encodeRegByte 0xF x 0x0A
  | .setDt x => encodeRegByte 0xF x 0x15
  | .setSt x => encodeRegByte 0xF x 0x18
  | .addI x => encodeRegByte 0xF x 0x1E
  | .font x => encodeRegByte 0xF x 0x29
  | .bcd x => encodeRegByte 0xF x 0x33
  | .stm x => encodeRegByte 0xF x 0x55
  | .ldm x => encodeRegByte 0xF x 0x65
  | .unknown w => w

/-- The bytes of an instruction as memory holds them, the first at the lower address (20_memory.md R65). -/
def encodeBytes (i : Instr) : List Byte := [highByte (encode i), lowByte (encode i)]

/-- The word that the opcode table numbers: bit 0 the least significant, the bits above `nbits` zero. -/
def tableWord (nbits w : Nat) : Word := BitVec.ofNat 16 (w % 2 ^ nbits)

/-- The instruction the decoder reads from the bytes of a word numbered as spec/opcode_table.json numbers it; no
instruction is longer than 16 bits (R90). -/
def decodeTableWord (nbits w : Nat) : Option Instr :=
  if nbits ≤ 16 then
    match decodeBytes [highByte (tableWord nbits w), lowByte (tableWord nbits w)] with
    | .ok (i, _) => some i
    | .error _ => none
  else none

end Sys2Proof
end

