-- ==== Sys2Proof/Config.lean ====
section
/-! DEFINITION. What is fixed for one machine: the fixed parameters (00_scope.md R6), the open parameters
(00_scope.md R7) with the reference values of 92_eei_decisions.md, and the free values. -/

namespace Sys2Proof.Config

/-- MEM_SIZE (R6): addresses 0x000 to 0xFFF. -/
abbrev memSize : Nat := 0x1000

/-- PROG_BASE (R6): the load address of the image and the reset value of PC. -/
abbrev progBase : Nat := 0x200

/-- IMAGE_MAX (R6): the largest program image in bytes. -/
abbrev imageMax : Nat := 3584

/-- FONT_BYTES (R6): the font table occupies 0x000 to 0x04F. -/
abbrev fontBytes : Nat := 80

/-- The 16 glyphs of five bytes that 20_memory.md R66 prints as the recommended value of FONT.
PRESUMED (log 4): the spec marks the bytes as general knowledge, not in its source; unsafe. -/
def fontGlyphs : List (List Byte) :=
  [[0xF0, 0x90, 0x90, 0x90, 0xF0], [0x20, 0x60, 0x20, 0x20, 0x70],
   [0xF0, 0x10, 0xF0, 0x80, 0xF0], [0xF0, 0x10, 0xF0, 0x10, 0xF0]] ++
  [[0x90, 0x90, 0xF0, 0x10, 0x10], [0xF0, 0x80, 0xF0, 0x10, 0xF0],
   [0xF0, 0x80, 0xF0, 0x90, 0xF0], [0xF0, 0x10, 0x20, 0x40, 0x40]] ++
  [[0xF0, 0x90, 0xF0, 0x90, 0xF0], [0xF0, 0x90, 0xF0, 0x10, 0xF0],
   [0xF0, 0x90, 0xF0, 0x90, 0x90], [0xE0, 0x90, 0xE0, 0x90, 0xE0]] ++
  [[0xF0, 0x80, 0x80, 0x80, 0xF0], [0xE0, 0x90, 0x90, 0x90, 0xE0],
   [0xF0, 0x80, 0xF0, 0x80, 0xF0], [0xF0, 0x80, 0xF0, 0x80, 0x80]]

/-- The recommended FONT as 80 bytes, glyph d at d * 5 (20_memory.md R62, R66; log 4). -/
def fontTable : Vector Byte fontBytes := ⟨fontGlyphs.flatten.toArray, by decide⟩

/-- What fires the timers: the divider of 60_exceptions.md R213, or the external one-bit input of the real-time
variant that R215 describes (log 28). -/
inductive TickSource where
  | divider
  | external
  deriving DecidableEq, Repr

/-- The open parameters of 00_scope.md R7, which the spec says a model takes as arguments. They stand in State, and
no step changes them, so a statement about every state is a statement about every value of them (logs 1 to 4, 28). -/
structure Params where
  /-- STACK_MAX -/
  stackMax : Nat
  /-- TICK_THRESHOLD -/
  tickThreshold : Nat
  /-- the divider, or R215's tick input -/
  tickSource : TickSource
  /-- DT_RESET -/
  dtReset : Byte
  /-- ST_RESET -/
  stReset : Byte
  /-- FONT -/
  font : Vector Byte fontBytes
  deriving DecidableEq, Repr

/-- The constraints of R7: STACK_MAX and TICK_THRESHOLD are at least 1. -/
def Params.ok (p : Params) : Bool := decide (1 ≤ p.stackMax) && decide (1 ≤ p.tickThreshold)

/-- The values the vectors of 95_test_vectors.md use (R7). DESIGN CHOICE (logs 1, 2, 3) and PRESUMED (log 4);
unsafe for a claim about the reset state alone. -/
def reference : Params where
  stackMax := 16
  tickThreshold := 8
  tickSource := .divider
  dtReset := 0
  stReset := 0
  font := fontTable

/-- The free value RAND (00_scope.md R7, 43_alu.md R165): the byte the host supplies at position `pos` of the stream of
run `run`. It has no body: no law on it can be proved (log 5; safe). -/
opaque randByte (run pos : Nat) : Byte

end Sys2Proof.Config
end

