-- ==== Sys2Proof/Machine/State.lean ====
section
/-! DEFINITION. The state of the Chip8 CORE (10_state.md R20 to R43), the signals at its boundary (R39, R40), the ways a
step can stop, and the state after reset (R43). -/

namespace Sys2Proof.Machine

/-- The cause the error latch holds (60_exceptions.md R207; an enumeration, as R207 allows). -/
inductive Cause where
  | none
  | memoryFault
  | stackOverflow
  | stackUnderflow
  | imageTooLarge
  deriving DecidableEq, Repr

/-- The 3-bit code of a cause on the `err` output (R207). -/
def Cause.code : Cause → BitVec 3
  | .none => 0
  | .memoryFault => 1
  | .stackOverflow => 2
  | .stackUnderflow => 3
  | .imageTooLarge => 4

/-- Why a step stops. No instruction raises these: an instruction that raises a fatal error takes it, as a next state
with the error latched and the machine halted (60_exceptions.md R206, log 8). A step of a machine that such an error
has halted has no cycle to run and stops with the latched error, so that a faulted state is never a successful final
state (R211). Safe: the hardware stays halted (R211). -/
inductive Fault where
  /-- Raised by the step of a machine that a MemoryFault has halted (R201, R211); safe. -/
  | memoryFault (errPc : Word) (errAddr : BitVec 17)
  /-- Raised by the step of a machine that a StackOverflow has halted (R202, R211); safe. -/
  | stackOverflow (errPc : Word)
  /-- Raised by the step of a machine that a StackUnderflow has halted (R203, R211); safe. -/
  | stackUnderflow (errPc : Word)
  /-- Raised by the step of a machine that an image too large has halted at load (R204, R211); safe. -/
  | imageTooLarge
  deriving DecidableEq, Repr

/-- Why a step is refused. -/
inductive Refusal where
  /-- An instruction whose meaning is not written yet; no arm of exec answers so now. Safe. -/
  | notModelled (mnemonic : String)
  /-- Raised by step for parameters that break the constraints of 00_scope.md R7, which 93_implementation_defined.md
  says a model refuses (log 29). Safe: no such machine exists. -/
  | badParameters
  deriving DecidableEq, Repr

/-- What the host does to the inputs before an iteration (10_state.md R39; logs 6 and 7). -/
inductive HostEvent where
  /-- drives the levels `keys_in`, `quit` and the tick input of 60_exceptions.md R215 -/
  | drive (keysIn : BitVec 16) (quit tick : Bool)
  /-- asserts `reset` with a program image (70_reset_and_hazards.md R240, R243) -/
  | reset (image : List Byte)
  deriving DecidableEq, Repr

/-- The `unknown_report` output while it is valid: the word and the address it was fetched from (60_exceptions.md R205). -/
structure UnknownReport where
  word : Word
  pc : Word
  deriving DecidableEq, Repr

/-- The 4096-byte array (20_memory.md R60) as (address, byte) pairs in one canonical form: addresses strictly rising, and
no entry equal to what an unlisted address reads as (`Memory.wf`, `unlisted` in Machine/Ops.lean; log 10). -/
abbrev Memory := List Host.Cell

/-- The framebuffer: 32 rows, the pixel of column x at bit x of its row (10_state.md R30; R40's bit order, log 27). -/
abbrev Framebuffer := Vector (BitVec 64) 32

structure State where
  /-- V0 to VF (R20, R21) -/
  v : Vector Byte 16
  /-- I (R23) -/
  index : Word
  /-- PC (R24) -/
  pc : Word
  /-- SP, the number of valid entries (R27, log 14) -/
  sp : Nat
  /-- stack[0] to stack[STACK_MAX - 1], stale slots included (R27, log 14) -/
  stack : List Word
  /-- DT (R29) -/
  dt : Byte
  /-- ST (R29) -/
  st : Byte
  /-- fb[y][x] (R30) -/
  fb : Framebuffer
  /-- key[k] is bit k (R31) -/
  keys : BitVec 16
  /-- the memory array (R32) -/
  mem : Memory
  /-- tick_ctr (R33) -/
  tickCtr : Nat
  /-- halted (R34) -/
  halted : Bool
  /-- err (R34, 60_exceptions.md R207) -/
  err : Cause
  /-- err_pc (R34, 60_exceptions.md R208) -/
  errPc : Word
  /-- err_addr (R34, 60_exceptions.md R208) -/
  errAddr : BitVec 17
  /-- rand_pos (R35) -/
  randPos : Nat
  /-- the level on `keys_in` (R39) -/
  keysIn : BitVec 16
  /-- the level on `quit` (R39) -/
  quitIn : Bool
  /-- the level on the tick input of 60_exceptions.md R215 (log 28) -/
  tickIn : Bool
  /-- the bytes the host has queued on `rand_in`; when they are used up the stream is free (R39, log 5) -/
  randIn : List Byte
  /-- `unknown_report`, valid when it is some (R40) -/
  unknownReport : Option UnknownReport
  /-- `waiting` (R36, R40) -/
  waiting : Bool
  /-- `tone` as last presented (R40, R41) -/
  tone : Bool
  /-- the open parameters (R38); no step changes them -/
  params : Config.Params
  /-- the model's own: what the host does before each of the coming iterations (log 6) -/
  drives : List HostEvent
  /-- the model's own: how many resets this machine has taken (log 5) -/
  runNo : Nat
  deriving DecidableEq, Repr

/-- The state after reset with the reference parameters and no program image (R43). Memory lists nothing: every byte
reads as its reset value. What the host drives at reset is the model's choice (log 6). -/
def State.reset : State where
  v := Vector.replicate 16 0
  index := 0
  pc := 0x200
  sp := 0
  stack := List.replicate Config.reference.stackMax 0
  dt := Config.reference.dtReset
  st := Config.reference.stReset
  fb := Vector.replicate 32 0
  keys := 0
  mem := []
  tickCtr := 0
  halted := false
  err := .none
  errPc := 0
  errAddr := 0
  randPos := 0
  keysIn := 0
  quitIn := false
  tickIn := false
  randIn := []
  unknownReport := none
  waiting := false
  tone := decide (0 < Config.reference.stReset.toNat)
  params := Config.reference
  drives := []
  runNo := 0

end Sys2Proof.Machine
end

