-- ==== Sys2Proof/Machine/Ops.lean ====
section
/-! DEFINITION. The named operations over memory, registers, stack and latch that the meanings share, among them taking a
fatal error (60_exceptions.md R206). -/

namespace Sys2Proof.Machine

/-- What an address that memory does not list reads as: the reset contents with no image, FONT's recommended bytes at
0x000 to 0x04F and 0 elsewhere (20_memory.md R67; logs 4 and 10). -/
def unlisted (a : Nat) : Byte := if h : a < Config.fontBytes then Config.fontTable[a] else 0

namespace Memory

/-- MemRead(a, 1) for an in-range address (00_scope.md R10). -/
def read : Memory → Nat → Byte
  | [], a => unlisted a
  | (k, b) :: rest, a => if k = a then b else read rest a

/-- MemWrite(a, 1, v) for an in-range address (00_scope.md R10); keeps the canonical form. -/
def write : Memory → Nat → Byte → Memory
  | [], a, v => if v = unlisted a then [] else [(a, v)]
  | (k, b) :: rest, a, v =>
    if a < k then
      if v = unlisted a then (k, b) :: rest else (a, v) :: (k, b) :: rest
    else if a = k then
      if v = unlisted a then rest else (a, v) :: rest
    else (k, b) :: write rest a v

/-- Bytes stored one after the other from `a` upward. -/
def writeBytes (m : Memory) (a : Nat) : List Byte → Memory
  | [] => m
  | b :: bs => writeBytes (m.write a b) (a + 1) bs

/-- The entries from address `lo` on are in canonical form. -/
def wfFrom (lo : Nat) : Memory → Bool
  | [] => true
  | (k, b) :: rest =>
    decide (lo ≤ k) && decide (k < Config.memSize) && (b != unlisted k) && wfFrom (k + 1) rest

/-- The canonical form: addresses strictly rising and in range, no entry equal to what an unlisted address reads as. -/
def wf (m : Memory) : Bool := wfFrom 0 m

end Memory

/-- Every address of the `n` bytes from `base` on is at most 0xFFF (20_memory.md R63); the sum is a natural number. -/
def inRange (base n : Nat) : Bool := decide (base + n ≤ Config.memSize)

/-- VF's index (10_state.md R21). -/
abbrev regF : Nibble := 15#4

namespace State

/-- V[x] (10_state.md R20). -/
def reg (s : State) (x : Nibble) : Byte := s.v[x.toNat]'(x.isLt)

/-- V[x] <- b (00_scope.md R10). -/
def setReg (s : State) (x : Nibble) (b : Byte) : State := { s with v := s.v.set x.toNat b x.isLt }

/-- V[x] <- r, then VF <- f, the flag last (43_alu.md R156; log 16). -/
def setRegFlag (s : State) (x : Nibble) (r f : Byte) : State := (s.setReg x r).setReg regF f

/-- PC <- target. -/
def setPc (s : State) (a : Word) : State := { s with pc := a }

/-- PC <- PC + 2, the default advance (30_encoding.md R102). -/
def advance (s : State) : State := s.setPc (s.pc + 2)

/-- PC <- PC + 4 if the condition holds, else PC <- PC + 2 (42_skip.md R140). -/
def skipIf (s : State) (c : Bool) : State := s.setPc (if c then s.pc + 4 else s.pc + 2)

/-- I <- a. -/
def setIndex (s : State) (a : Word) : State := { s with index := a }

/-- The framebuffer is replaced. -/
def setFb (s : State) (f : Framebuffer) : State := { s with fb := f }

/-- Memory is replaced. -/
def setMem (s : State) (m : Memory) : State := { s with mem := m }

/-- The register file is replaced. -/
def setRegs (s : State) (v : Vector Byte 16) : State := { s with v := v }

/-- DT <- b. -/
def setDelay (s : State) (b : Byte) : State := { s with dt := b }

/-- ST <- b. -/
def setSound (s : State) (b : Byte) : State := { s with st := b }

/-- The `waiting` output of this cycle (10_state.md R36). -/
def setWaiting (s : State) (w : Bool) : State := { s with waiting := w }

/-- report UnknownOpcode(word, PC) (60_exceptions.md R205). -/
def report (s : State) (w : Word) : State := { s with unknownReport := some { word := w, pc := s.pc } }

/-- stack[SP] <- a; SP <- SP + 1 (41_flow.md R133). -/
def push (s : State) (a : Word) : State := { s with stack := s.stack.set s.sp a, sp := s.sp + 1 }

/-- stack[SP - 1], the top of a stack that is not empty (10_state.md R27). -/
def top (s : State) : Word := s.stack.getD (s.sp - 1) 0

/-- SP <- SP - 1; the slot keeps its contents (10_state.md R27, 41_flow.md R131). -/
def pop (s : State) : State := { s with sp := s.sp - 1 }

/-- draw_rand(): the next byte of RAND (43_alu.md R165): a queued byte if the host has one, else the free value. -/
def randByte (s : State) : Byte :=
  match s.randIn with
  | b :: _ => b
  | [] => Config.randByte s.runNo s.randPos

/-- draw_rand(): rand_pos <- rand_pos + 1, and a queued byte is used up (43_alu.md R165). -/
def takeRand (s : State) : State := { s with randIn := s.randIn.tail, randPos := s.randPos + 1 }

/-- TAKING A FATAL ERROR (60_exceptions.md R206): the latch records the cause, the failing instruction's address and the
offending address (R207, R208), the machine is halted, and nothing else changes, so PC stays at the instruction.
There is no handler and no return from an error (R211): only reset leaves Halted (`takeReset`, Machine/Iteration.lean). -/
def raise (s : State) (c : Cause) (addr : BitVec 17) : State :=
  { s with halted := true, err := c, errPc := s.pc, errAddr := addr }

/-- raise MemoryFault: the offending address is the lowest one above 0xFFF that would have been touched (R208). -/
def raiseMemory (s : State) (base : Word) : State :=
  s.raise .memoryFault (BitVec.ofNat 17 (max base.toNat 0x1000))

/-- raise StackOverflow or StackUnderflow: the offending address is PC (R208). -/
def raiseStack (s : State) (c : Cause) : State := s.raise c (s.pc.setWidth 17)

end State

end Sys2Proof.Machine
end

