-- ==== Sys2Proof/Machine/Operands.lean ====
section
/-! DEFINITION. The operand forms: literals zero-extended (30_encoding.md R93), the effective addresses I + k
(44_index_memory.md R176), keys named by a register (45_keys_timers.md R180) and the register blocks of STM and LDM. -/

namespace Sys2Proof.Machine

/-- A literal address, zero-extended to the width of PC or I (30_encoding.md R93). -/
def addrOperand (nnn : Addr12) : Word := nnn.setWidth 16

/-- NNN + V[0], a natural-number sum of at most 0x10FE, not reduced (41_flow.md R134). -/
def offsetOperand (nnn : Addr12) (v0 : Byte) : Word := nnn.setWidth 16 + v0.setWidth 16

/-- (V[X] & 0x0F) * 5, the address of a glyph (44_index_memory.md R172). -/
def glyphAddress (b : Byte) : Word := (b &&& 0x0F).setWidth 16 * 5

/-- I + V[X] modulo 65536 (44_index_memory.md R171; log 17). -/
def indexSum (i : Word) (b : Byte) : Word := i + b.setWidth 16

/-- key[k] = 1, for the key number a register holds (10_state.md R31). -/
def keyDown (keys : BitVec 16) (k : Byte) : Bool := keys.getLsbD k.toNat

/-- The key number names one of the 16 keys (45_keys_timers.md R180). -/
def isKey (k : Byte) : Bool := decide (k.toNat < 16)

/-- The lowest-numbered pressed key from `k` on, among the `n` keys that are left to look at. -/
def lowestKeyFrom (keys : BitVec 16) (k : Nat) : Nat → Option Nat
  | 0 => none
  | n + 1 => if keys.getLsbD k then some k else lowestKeyFrom keys (k + 1) n

/-- The least k in 0..15 with key[k] = 1 (45_keys_timers.md R183; log 20). -/
def lowestKey (keys : BitVec 16) : Option Nat := lowestKeyFrom keys 0 16

namespace State

/-- The address I + k as the natural number the bounds rule checks (20_memory.md R63). -/
def dataAddr (s : State) (k : Nat) : Nat := s.index.toNat + k

/-- The byte MemRead(I + k, 1). -/
def dataByte (s : State) (k : Nat) : Byte := s.mem.read (s.dataAddr k)

end State

/-- The three decimal digits BCD stores, hundreds first (44_index_memory.md R173). -/
def bcdDigits (b : Byte) : List Byte :=
  [BitVec.ofNat 8 (b.toNat / 100), BitVec.ofNat 8 (b.toNat / 10 % 10), BitVec.ofNat 8 (b.toNat % 10)]

/-- V[k] for a register number that counts 0 to 15. -/
def regAt (v : Vector Byte 16) (k : Nat) : Byte := if h : k < 16 then v[k] else 0

/-- for k in 0..n-1: MemWrite(base + k, 1, V[k]) (44_index_memory.md R174). -/
def storeRegs (v : Vector Byte 16) (base : Nat) (m : Memory) : Nat → Memory
  | 0 => m
  | n + 1 => (storeRegs v base m n).write (base + n) (regAt v n)

/-- for k in 0..n-1: V[k] <- MemRead(base + k, 1) (44_index_memory.md R175). -/
def loadRegs (m : Memory) (base : Nat) (v : Vector Byte 16) : Nat → Vector Byte 16
  | 0 => v
  | n + 1 => (loadRegs m base v n).setIfInBounds n (m.read (base + n))

/-- One sprite row on the 64 columns: bit 7 - c of the byte at column x0 + c; a bit that would fall at column 64 or
beyond is dropped (40_screen.md R121). -/
def spriteRow (x0 : Nat) (b : Byte) : BitVec 64 := (b.reverse.setWidth 64) <<< x0

/-- Row y of the framebuffer. -/
def fbRow (f : Framebuffer) (y : Nat) : BitVec 64 := if h : y < 32 then f[y] else 0

/-- fb[y][x] = 1 (10_state.md R30). -/
def pixel (f : Framebuffer) (x y : Nat) : Bool := (fbRow f y).getLsbD x

/-- The rows of a sprite that are drawn: row r is drawn when y0 + r is at most 31 (40_screen.md R121). -/
def drawnRows (y0 n : Nat) : Nat := min n (32 - y0)

/-- The first `n` rows of the sprite at `base`, drawn by XOR from (x0, y0) on, and whether a pixel went from 1 to 0
(40_screen.md R121). -/
def drawRows (m : Memory) (base x0 y0 : Nat) (f : Framebuffer) : Nat → Framebuffer × Bool
  | 0 => (f, false)
  | n + 1 =>
    let drawn := drawRows m base x0 y0 f n
    let sprite := spriteRow x0 (m.read (base + n))
    let row := fbRow drawn.1 (y0 + n)
    (drawn.1.setIfInBounds (y0 + n) (row ^^^ sprite), drawn.2 || (row &&& sprite != 0))

end Sys2Proof.Machine
end

