-- ==== Sys2Proof/Machine/Flags.lean ====
section
/-! DEFINITION. The flag values an instruction leaves in VF, each 0 or 1 (43_alu.md R150, 10_state.md R21). -/

namespace Sys2Proof.Machine

/-- A condition as the byte 1 or 0. -/
def flag (c : Bool) : Byte := if c then 1 else 0

/-- The carry of ADD: 1 if the unwrapped sum overflows 8 bits (43_alu.md R158). -/
def carryFlag (a b : Byte) : Byte := flag (decide (255 < a.toNat + b.toNat))

/-- The not-borrow flag of a - b: 1 if a is at least b (43_alu.md R159, R161). -/
def notBorrowFlag (a b : Byte) : Byte := flag (decide (b.toNat ≤ a.toNat))

/-- The bit that SHR shifts out, bit 0 (43_alu.md R160). -/
def shiftedOutLow (b : Byte) : Byte := flag (b.getLsbD 0)

/-- The bit that SHL shifts out, bit 7 (43_alu.md R162). -/
def shiftedOutHigh (b : Byte) : Byte := flag (b.getLsbD 7)

/-- The collision flag of DRW (40_screen.md R121). -/
def collisionFlag (hit : Bool) : Byte := flag hit

end Sys2Proof.Machine
end

