-- ==== Sys2Proof/Machine/Alu.lean ====
section
/-! DEFINITION. Register loads, arithmetic, logic, shifts and the random byte (43_alu.md). In the flag-writing
instructions both operands are read first, and VF is written last (R156, log 16). -/

namespace Sys2Proof.Machine

/-- LD_IMM Vx, nn (R151). -/
def execLdImm (x : Nibble) (nn : Byte) (s : State) : Host.Outcome State Fault Refusal :=
  .next (s.setReg x nn).advance

/-- ADD_IMM Vx, nn (R152): wraps, no flag. -/
def execAddImm (x : Nibble) (nn : Byte) (s : State) : Host.Outcome State Fault Refusal :=
  .next (s.setReg x (s.reg x + nn)).advance

/-- MOV Vx, Vy (R153). -/
def execMov (x y : Nibble) (s : State) : Host.Outcome State Fault Refusal :=
  .next (s.setReg x (s.reg y)).advance

/-- OR Vx, Vy (R154). -/
def execOr (x y : Nibble) (s : State) : Host.Outcome State Fault Refusal :=
  .next (s.setReg x (s.reg x ||| s.reg y)).advance

/-- AND Vx, Vy (R155). -/
def execAnd (x y : Nibble) (s : State) : Host.Outcome State Fault Refusal :=
  .next (s.setReg x (s.reg x &&& s.reg y)).advance

/-- XOR Vx, Vy (R157). -/
def execXor (x y : Nibble) (s : State) : Host.Outcome State Fault Refusal :=
  .next (s.setReg x (s.reg x ^^^ s.reg y)).advance

/-- ADD Vx, Vy (R158): VF is the carry. -/
def execAdd (x y : Nibble) (s : State) : Host.Outcome State Fault Refusal :=
  .next (s.setRegFlag x (s.reg x + s.reg y) (carryFlag (s.reg x) (s.reg y))).advance

/-- SUB Vx, Vy (R159): VF is 1 when no borrow occurred. -/
def execSub (x y : Nibble) (s : State) : Host.Outcome State Fault Refusal :=
  .next (s.setRegFlag x (s.reg x - s.reg y) (notBorrowFlag (s.reg x) (s.reg y))).advance

/-- SHR Vx, Vy (R160): the value shifted is V[Y]. -/
def execShr (x y : Nibble) (s : State) : Host.Outcome State Fault Refusal :=
  .next (s.setRegFlag x (s.reg y >>> 1) (shiftedOutLow (s.reg y))).advance

/-- SUBN Vx, Vy (R161): V[Y] - V[X]. -/
def execSubn (x y : Nibble) (s : State) : Host.Outcome State Fault Refusal :=
  .next (s.setRegFlag x (s.reg y - s.reg x) (notBorrowFlag (s.reg y) (s.reg x))).advance

/-- SHL Vx, Vy (R162): the value shifted is V[Y]. -/
def execShl (x y : Nibble) (s : State) : Host.Outcome State Fault Refusal :=
  .next (s.setRegFlag x (s.reg y <<< 1) (shiftedOutHigh (s.reg y))).advance

/-- RND Vx, nn (R165): a byte is drawn whatever the mask (log 5). -/
def execRnd (x : Nibble) (nn : Byte) (s : State) : Host.Outcome State Fault Refusal :=
  .next (s.takeRand.setReg x (s.randByte &&& nn)).advance

end Sys2Proof.Machine
end

