-- ==== Sys2Proof/Machine/Flow.lean ====
section
/-! DEFINITION. The control-transfer instructions (41_flow.md). -/

namespace Sys2Proof.Machine

/-- RET (R131): PC becomes the popped entry plus 2 (90_conflicts.md C3, log 15); StackUnderflow on an empty stack. -/
def execRet (s : State) : Host.Outcome State Fault Refusal :=
  if s.sp = 0 then .next (s.raiseStack .stackUnderflow) else .next (s.pop.setPc (s.top + 2))

/-- JP nnn (R132). -/
def execJp (nnn : Addr12) (s : State) : Host.Outcome State Fault Refusal :=
  .next (s.setPc (addrOperand nnn))

/-- CALL nnn (R133): pushes its own address (log 15); StackOverflow at STACK_MAX entries. -/
def execCall (nnn : Addr12) (s : State) : Host.Outcome State Fault Refusal :=
  if s.sp = s.params.stackMax then .next (s.raiseStack .stackOverflow)
  else .next ((s.push s.pc).setPc (addrOperand nnn))

/-- JP_V0 nnn (R134): the sum is not reduced to 12 bits. -/
def execJpV0 (nnn : Addr12) (s : State) : Host.Outcome State Fault Refusal :=
  .next (s.setPc (offsetOperand nnn (s.reg 0)))

end Sys2Proof.Machine
end

