-- ==== Sys2Proof/Machine/IndexMemory.lean ====
section
/-! DEFINITION. The index-register and memory instructions (44_index_memory.md). None of BCD, STM, LDM moves I (R176), and
their bounds check precedes every effect (20_memory.md R63). -/

namespace Sys2Proof.Machine

/-- LD_I nnn (R170). -/
def execLdI (nnn : Addr12) (s : State) : Host.Outcome State Fault Refusal :=
  .next (s.setIndex (addrOperand nnn)).advance

/-- ADD_I Vx (R171): wraps at 16 bits, VF is not written. -/
def execAddI (x : Nibble) (s : State) : Host.Outcome State Fault Refusal :=
  .next (s.setIndex (indexSum s.index (s.reg x))).advance

/-- FONT Vx (R172): only the low nibble of V[X] is used, memory is not read. -/
def execFont (x : Nibble) (s : State) : Host.Outcome State Fault Refusal :=
  .next (s.setIndex (glyphAddress (s.reg x))).advance

/-- BCD Vx (R173). -/
def execBcd (x : Nibble) (s : State) : Host.Outcome State Fault Refusal :=
  if inRange (s.dataAddr 0) 3 then
    .next (s.setMem (s.mem.writeBytes (s.dataAddr 0) (bcdDigits (s.reg x)))).advance
  else .next (s.raiseMemory s.index)

/-- STM Vx (R174): X + 1 bytes, V0 at the lowest address. -/
def execStm (x : Nibble) (s : State) : Host.Outcome State Fault Refusal :=
  if inRange (s.dataAddr 0) (x.toNat + 1) then
    .next (s.setMem (storeRegs s.v (s.dataAddr 0) s.mem (x.toNat + 1))).advance
  else .next (s.raiseMemory s.index)

/-- LDM Vx (R175): X + 1 bytes, the lowest address into V0. -/
def execLdm (x : Nibble) (s : State) : Host.Outcome State Fault Refusal :=
  if inRange (s.dataAddr 0) (x.toNat + 1) then
    .next (s.setRegs (loadRegs s.mem (s.dataAddr 0) s.v (x.toNat + 1))).advance
  else .next (s.raiseMemory s.index)

end Sys2Proof.Machine
end

