-- ==== Sys2Proof/Machine/KeysTimers.lean ====
section
/-! DEFINITION. The key and timer instructions (45_keys_timers.md). -/

namespace Sys2Proof.Machine

/-- SKP Vx (R180): a key number of 16 or more never skips. -/
def execSkp (x : Nibble) (s : State) : Host.Outcome State Fault Refusal :=
  .next (s.skipIf (isKey (s.reg x) && keyDown s.keys (s.reg x)))

/-- SKNP Vx (R181): a key number of 16 or more never skips here either (log 21). -/
def execSknp (x : Nibble) (s : State) : Host.Outcome State Fault Refusal :=
  .next (s.skipIf (isKey (s.reg x) && !keyDown s.keys (s.reg x)))

/-- GET_DT Vx (R182). -/
def execGetDt (x : Nibble) (s : State) : Host.Outcome State Fault Refusal :=
  .next (s.setReg x s.dt).advance

/-- WAIT_KEY Vx (R183): the lowest pressed key (log 20); with none pressed PC stays and `waiting` is 1. -/
def execWaitKey (x : Nibble) (s : State) : Host.Outcome State Fault Refusal :=
  match lowestKey s.keys with
  | some k => .next (s.setReg x (BitVec.ofNat 8 k)).advance
  | none => .next (s.setWaiting true)

/-- SET_DT Vx (R184); tick_ctr is not reset. -/
def execSetDt (x : Nibble) (s : State) : Host.Outcome State Fault Refusal :=
  .next (s.setDelay (s.reg x)).advance

/-- SET_ST Vx (R185). -/
def execSetSt (x : Nibble) (s : State) : Host.Outcome State Fault Refusal :=
  .next (s.setSound (s.reg x)).advance

end Sys2Proof.Machine
end

