-- ==== Sys2Proof/Machine/Screen.lean ====
section
/-! DEFINITION. The screen instructions (40_screen.md). -/

namespace Sys2Proof.Machine

/-- CLS (R120): every pixel 0. -/
def execCls (s : State) : Host.Outcome State Fault Refusal :=
  .next (s.setFb (Vector.replicate 32 0)).advance

/-- DRW Vx, Vy, n (R121): both coordinates are read before VF is written, the rows that are clipped at the bottom are
not read, and the bounds check precedes every effect (log 19). -/
def execDrw (x y n : Nibble) (s : State) : Host.Outcome State Fault Refusal :=
  let x0 := (s.reg x).toNat % 64
  let y0 := (s.reg y).toNat % 32
  let rows := drawnRows y0 n.toNat
  if rows = 0 || inRange (s.dataAddr 0) rows then
    let drawn := drawRows s.mem (s.dataAddr 0) x0 y0 s.fb rows
    .next ((s.setFb drawn.1).setReg regF (collisionFlag drawn.2)).advance
  else .next (s.raiseMemory s.index)

end Sys2Proof.Machine
end

