-- ==== Sys2Proof/Machine/Unknown.lean ====
section
/-! DEFINITION. The Unknown class (46_unknown.md): an ordinary step with a recorded report (R191). -/

namespace Sys2Proof.Machine

/-- UNKNOWN w (R190): the report, and PC + 2. -/
def execUnknown (w : Word) (s : State) : Host.Outcome State Fault Refusal :=
  .next (s.report w).advance

end Sys2Proof.Machine
end

