-- ==== Sys2Proof/Machine/Iteration.lean ====
section
/-! DEFINITION. What one outer iteration does around the instruction (60_exceptions.md R220): the host's drive, quit, the
key sample, the fetch, the presentation and the tick step; and reset with a load (70_reset_and_hazards.md R240, R243). -/

namespace Sys2Proof.Machine

/-- The memory of a machine whose image does not fit: the initializer "zeroes the whole memory array" and the load
writes nothing (70_reset_and_hazards.md R240, R243), so zeros are listed where an unlisted address reads as FONT. -/
def zeroMemory : Memory := Memory.writeBytes [] 0 (List.replicate Config.fontBytes 0)

/-- The Loader (R243) over the zeroed array: FONT at each address of 0x000 to 0x04F, then the image from 0x200; every
other address reads as 0, as it does unlisted. -/
def loadedMemory (font : Vector Byte Config.fontBytes) (image : List Byte) : Memory :=
  (Memory.writeBytes [] 0 font.toList).writeBytes Config.progBase image

/-- The image fits (R243, R244). -/
def imageFits (image : List Byte) : Bool := decide (image.length ≤ Config.imageMax)

namespace State

/-- Reset and load (R240, R243; 10_state.md R43) for any parameters and image: an image that does not fit halts the
machine with nothing loaded. -/
def resetWith (p : Config.Params) (image : List Byte) : State :=
  { State.reset with
    params := p
    stack := List.replicate p.stackMax 0
    dt := p.dtReset
    st := p.stReset
    tone := decide (0 < p.stReset.toNat)
    mem := if imageFits image then loadedMemory p.font image else zeroMemory
    halted := !imageFits image
    err := if imageFits image then .none else .imageTooLarge }

/-- The machine takes the `reset` input with an image (R240): every piece of the CORE's state is that of `resetWith`; the
parameters and what the host drives are the host's, and stay (log 7). -/
def takeReset (s : State) (image : List Byte) (coming : List HostEvent) : State :=
  { resetWith s.params image with
    keysIn := s.keysIn
    quitIn := s.quitIn
    tickIn := s.tickIn
    randIn := s.randIn
    drives := coming
    runNo := s.runNo + 1 }

/-- The host drives the levels of the inputs before an iteration (10_state.md R39). -/
def takeDrive (s : State) (k : BitVec 16) (q t : Bool) (coming : List HostEvent) : State :=
  { s with keysIn := k, quitIn := q, tickIn := t, drives := coming }

/-- `halted` <- 1 on quit; err stays None and all other state keeps its value (60_exceptions.md R221). DESIGN CHOICE
(log 30): the outputs keep theirs too, so a report of the iteration before stays valid. -/
def quit (s : State) : State := { s with halted := true }

/-- Step 1 of the iteration (60_exceptions.md R220): the key levels are sampled; the outputs of the last cycle end
(R205, 10_state.md R36). -/
def sampleKeys (s : State) : State :=
  { s with keys := s.keysIn, unknownReport := none, waiting := false }

/-- Step 3 (60_exceptions.md R220): `tone` is computed from ST after the instruction (10_state.md R41). -/
def present (s : State) : State := { s with tone := decide (0 < s.st.toNat) }

/-- `fb_out`: pixel (x, y) at bit y * 64 + x (10_state.md R40). It is a function of the framebuffer (logs 12, 27). -/
def fbOut (s : State) : BitVec 2048 :=
  s.fb.toList.foldr (fun row rest => (rest <<< 64) ||| row.setWidth 2048) 0

/-- A timer counts down and stops at 0 (60_exceptions.md R213). -/
def countDown (b : Byte) : Byte := if 0 < b.toNat then b - 1 else b

/-- The timers fire: at the threshold of the divider (60_exceptions.md R213), or, in the real-time variant, when the
tick input is 1 (R215, log 28). -/
def tickFires (s : State) : Bool :=
  match s.params.tickSource with
  | .divider => decide (s.params.tickThreshold ≤ s.tickCtr + 1)
  | .external => s.tickIn

/-- TickStep (60_exceptions.md R213). -/
def tickStep (s : State) : State :=
  if s.tickFires then { s with dt := countDown s.dt, st := countDown s.st, tickCtr := 0 }
  else { s with tickCtr := s.tickCtr + 1 }

/-- w <- MemRead(PC, 2) (30_encoding.md R101): none when PC > 0xFFE (20_memory.md R64). -/
def fetch (s : State) : Option Word :=
  if inRange s.pc.toNat 2 then
    some (wordOfBytes (s.mem.read s.pc.toNat) (s.mem.read (s.pc.toNat + 1)))
  else none

end State

/-- The fault a step of a machine halted by a fatal error stops with; none when `quit` halted it (log 8, log 9). -/
def latchedFault (s : State) : Option Fault :=
  match s.err with
  | .none => none
  | .memoryFault => some (.memoryFault s.errPc s.errAddr)
  | .stackOverflow => some (.stackOverflow s.errPc)
  | .stackUnderflow => some (.stackUnderflow s.errPc)
  | .imageTooLarge => some .imageTooLarge

/-- The step of a halted machine: no cycle, no tick step, nothing sampled (60_exceptions.md R211). -/
def haltedOutcome (s : State) : Host.Outcome State Fault Refusal :=
  match latchedFault s with
  | some f => .fault f
  | none => .next s

/-- Steps 3 and 4 after the instruction; they do not run in an iteration that raised a fatal error (R206). -/
def endIteration : Host.Outcome State Fault Refusal → Host.Outcome State Fault Refusal
  | .next s => .next (if s.halted then s else s.present.tickStep)
  | .fault f => .fault f
  | .refused r => .refused r

/-- Cycle() (30_encoding.md R101): the fetched word is decoded and executed, then the iteration ends; a fetch that is out
of range raises MemoryFault and no instruction is obtained (20_memory.md R64). -/
def runCycle (execute : Word → State → Host.Outcome State Fault Refusal) (s : State) :
    Host.Outcome State Fault Refusal :=
  match s.fetch with
  | some w => endIteration (execute w s)
  | none => .next (s.raiseMemory s.pc)

/-- The iteration once the inputs are driven: a halted machine runs no cycle (R211), quit halts it (R221), else the keys
are sampled and the cycle runs (R220). -/
def startIteration (execute : Word → State → Host.Outcome State Fault Refusal) (s : State) :
    Host.Outcome State Fault Refusal :=
  if s.halted then haltedOutcome s
  else if s.quitIn then .next s.quit
  else runCycle execute s.sampleKeys

/-- One outer iteration (R220). Before it the host acts on the inputs: it resets the machine, drives the levels, or lets
them stand (10_state.md R39; logs 6 and 7). Parameters that break R7's constraints are refused (log 29). -/
def iteration (execute : Word → State → Host.Outcome State Fault Refusal) (s : State) :
    Host.Outcome State Fault Refusal :=
  if s.params.ok then
    match s.drives with
    | [] => startIteration execute s
    | .drive k q t :: coming => startIteration execute (s.takeDrive k q t coming)
    | .reset image :: coming => .next (s.takeReset image coming)
  else .refused .badParameters

/-- The word of `withFetchWord`, stored at PC and PC + 1 (20_memory.md R65); a PC that cannot be fetched from is left. -/
def storeWord (s : State) (w : Word) : State :=
  if inRange s.pc.toNat 2 then
    s.setMem (s.mem.writeBytes s.pc.toNat [highByte w, lowByte w])
  else s

end Sys2Proof.Machine
end

