-- ==== Sys2Proof/Machine/Step.lean ====
section
/-! DEFINITION. One step: one outer iteration (60_exceptions.md R220). -/

namespace Sys2Proof.Machine

/-- Decode(w), then Execute(d) (30_encoding.md R101). -/
def executeWord (w : Word) (s : State) : Host.Outcome State Fault Refusal := exec (decode w) s

/-- One outer iteration of the machine (60_exceptions.md R220). -/
def step (s : State) : Host.Outcome State Fault Refusal := iteration executeWord s

/-- `s` with an instruction, its bits numbered as the opcode table numbers them, stored where step fetches next (log 11). -/
def State.withFetchWord (s : State) (nbits w : Nat) : State := storeWord s (tableWord nbits w)

end Sys2Proof.Machine
end

