-- ==== Sys2Proof/Safety.lean ====
section
/-! DEFINITION. What counts as a well-kept state and as a safe run, in the terms the statements use. -/

namespace Sys2Proof.Machine

/-- The largest value PC can take (10_state.md R26). -/
abbrev maxPc : Nat := 0x10FE

/-- The largest address an instruction can be fetched from (20_memory.md R64). -/
abbrev maxFetch : Nat := 0xFFE

/-- The stack: one slot for each of STACK_MAX, at most STACK_MAX valid, and every valid entry is an address a CALL was
fetched from (10_state.md R27, R28; 41_flow.md R131). -/
abbrev State.StackOk (s : State) : Prop :=
  s.stack.length = s.params.stackMax ∧ s.sp ≤ s.params.stackMax ∧
    (s.stack.take s.sp).all (fun e => decide (e.toNat ≤ maxFetch)) = true

/-- tick_ctr stays below TICK_THRESHOLD between iterations when the divider ticks (10_state.md R33). -/
abbrev State.TickOk (s : State) : Prop :=
  s.params.tickSource = .divider → s.tickCtr < s.params.tickThreshold

/-- The latch is written only by what halts the machine (10_state.md R34, 60_exceptions.md R207). -/
abbrev State.LatchOk (s : State) : Prop :=
  (s.halted = false → s.err = .none) ∧ (s.err = .none → s.errPc = 0 ∧ s.errAddr = 0)

/-- The invariant of the machine: the parameters keep their constraints, memory keeps its canonical form, PC its range,
the stack its depth, tick_ctr its bound and the error latch its form. -/
abbrev State.Inv (s : State) : Prop :=
  s.params.ok = true ∧ s.mem.wf = true ∧ s.pc.toNat ≤ maxPc ∧ s.StackOk ∧ s.TickOk ∧ s.LatchOk

/-- No fatal error has been raised (60_exceptions.md R206, R211). -/
abbrev State.ErrorFree (s : State) : Prop := s.err = .none

/-- A safe run of `n` iterations: each answers a next state, and no fatal error is raised on the way. -/
def SafeRun : Nat → State → Prop
  | 0, s => s.ErrorFree
  | n + 1, s => s.ErrorFree ∧ ∃ t, step s = .next t ∧ SafeRun n t

end Sys2Proof.Machine
end

