-- ==== Sys2Proof/Certificates/Slice0/Obligations.lean ====
section
/-! DEFINITION. The statements for the provers. "D<n>" names a row of 92_eei_decisions.md, "log n" a row of
notes/assumptions: a clause that rests on one is the spec's or the model's own choice, no rule, and its statement has
basis derived. -/

namespace Sys2Proof.Frame

open Sys2Proof.Machine

/-- Every byte of memory reads as before. -/
def SameMemory (s t : State) : Prop := ∀ a, t.mem.read a = s.mem.read a

/-- Every V register outside `written` holds what it held. -/
def OtherRegs (s t : State) (written : List Nibble) : Prop := ∀ r, r ∉ written → t.reg r = s.reg r

/-- Nothing but PC may differ. -/
def OnlyPc (s t : State) : Prop := t = { s with pc := t.pc } ∧ SameMemory s t

/-- Nothing but the V registers `written` and PC may differ. -/
def OnlyRegs (s t : State) (written : List Nibble) : Prop :=
  OtherRegs s t written ∧ t = { s with v := t.v, pc := t.pc } ∧ SameMemory s t

/-- Nothing but I and PC may differ. -/
def OnlyIndex (s t : State) : Prop := t = { s with index := t.index, pc := t.pc } ∧ SameMemory s t

/-- Nothing but PC and the `n` bytes of memory from `base` on may differ. -/
def OnlyStored (s t : State) (base n : Nat) : Prop :=
  t = { s with mem := t.mem, pc := t.pc } ∧ ∀ a, a < base ∨ base + n ≤ a → t.mem.read a = s.mem.read a

/-- The state after a fatal error (60_exceptions.md R206 to R208): the latch is written, nothing else changes. -/
def raised (s : State) (c : Cause) (addr : Nat) : State :=
  { s with halted := true, err := c, errPc := s.pc, errAddr := BitVec.ofNat 17 addr }

/-- The next step of `s` runs a cycle, with the inputs at the levels of `d`: the host lets them stand, or drives them
(10_state.md R39). -/
def Starts (s d : State) : Prop :=
  s.params.ok = true ∧ s.halted = false ∧
    ((s.drives = [] ∧ s.quitIn = false ∧ d = s) ∨
      ∃ k tick coming, s.drives = .drive k false tick :: coming ∧
        d = { s with keysIn := k, quitIn := false, tickIn := tick, drives := coming })

/-- The keys are sampled from the levels, and the report and `waiting` of the last cycle have ended
(60_exceptions.md R220, R205). -/
def sampled (d : State) : State := { d with keys := d.keysIn, unknownReport := none, waiting := false }

/-- The row of 30_encoding.md R96 that stands beside an instruction's mnemonic. -/
def rowOf : Instr → Option OpcodeRow
  | .cls => some ⟨0xFFFF, 0x00E0⟩
  | .ret => some ⟨0xFFFF, 0x00EE⟩
  | .jp _ => some ⟨0xF000, 0x1000⟩
  | .call _ => some ⟨0xF000, 0x2000⟩
  | .seImm _ _ => some ⟨0xF000, 0x3000⟩
  | .sneImm _ _ => some ⟨0xF000, 0x4000⟩
  | .seReg _ _ => some ⟨0xF00F, 0x5000⟩
  | .ldImm _ _ => some ⟨0xF000, 0x6000⟩
  | .addImm _ _ => some ⟨0xF000, 0x7000⟩
  | .mov _ _ => some ⟨0xF00F, 0x8000⟩
  | .or _ _ => some ⟨0xF00F, 0x8001⟩
  | .and _ _ => some ⟨0xF00F, 0x8002⟩
  | .xor _ _ => some ⟨0xF00F, 0x8003⟩
  | .add _ _ => some ⟨0xF00F, 0x8004⟩
  | .sub _ _ => some ⟨0xF00F, 0x8005⟩
  | .shr _ _ => some ⟨0xF00F, 0x8006⟩
  | .subn _ _ => some ⟨0xF00F, 0x8007⟩
  | .shl _ _ => some ⟨0xF00F, 0x800E⟩
  | .sneReg _ _ => some ⟨0xF00F, 0x9000⟩
  | .ldI _ => some ⟨0xF000, 0xA000⟩
  | .jpV0 _ => some ⟨0xF000, 0xB000⟩
  | .rnd _ _ => some ⟨0xF000, 0xC000⟩
  | .drw _ _ _ => some ⟨0xF000, 0xD000⟩
  | .skp _ => some ⟨0xF0FF, 0xE09E⟩
  | .sknp _ => some ⟨0xF0FF, 0xE0A1⟩
  | .getDt _ => some ⟨0xF0FF, 0xF007⟩
  | .waitKey _ => some ⟨0xF0FF, 0xF00A⟩
  | .setDt _ => some ⟨0xF0FF, 0xF015⟩
  | .setSt _ => some ⟨0xF0FF, 0xF018⟩
  | .addI _ => some ⟨0xF0FF, 0xF01E⟩
  | .font _ => some ⟨0xF0FF, 0xF029⟩
  | .bcd _ => some ⟨0xF0FF, 0xF033⟩
  | .stm _ => some ⟨0xF0FF, 0xF055⟩
  | .ldm _ => some ⟨0xF0FF, 0xF065⟩
  | .unknown _ => none

/-- The V registers an instruction may write (10_state.md R21, R22). -/
def writes : Instr → Nibble → Prop
  | .ldImm x _, r | .addImm x _, r | .mov x _, r | .or x _, r | .and x _, r | .xor x _, r | .rnd x _, r
  | .getDt x, r | .waitKey x, r => r = x
  | .add x _, r | .sub x _, r | .subn x _, r | .shr x _, r | .shl x _, r => r = x ∨ r = 15
  | .drw _ _ _, r => r = 15
  | .ldm x, r => r ≤ x
  | .cls, _ | .ret, _ | .jp _, _ | .call _, _ | .seImm _ _, _ | .sneImm _ _, _ | .seReg _ _, _
  | .sneReg _ _, _ | .ldI _, _ | .jpV0 _, _ | .skp _, _ | .sknp _, _ | .setDt _, _ | .setSt _, _
  | .addI _, _ | .font _, _ | .bcd _, _ | .stm _, _ | .unknown _, _ => False

/-- PC after an instruction that raises no error: the table of 10_state.md R25, with the conditions of 42_skip.md and
45_keys_timers.md (SKNP with V[X] of 16 or more: D13, log 21). -/
def pcAfter (s : State) : Instr → Word
  | .jp nnn | .call nnn => nnn.setWidth 16
  | .jpV0 nnn => BitVec.ofNat 16 (nnn.toNat + (s.reg 0).toNat)
  | .ret => s.stack.getD (s.sp - 1) 0 + 2
  | .seImm x nn => if s.reg x = nn then s.pc + 4 else s.pc + 2
  | .sneImm x nn => if s.reg x = nn then s.pc + 2 else s.pc + 4
  | .seReg x y => if s.reg x = s.reg y then s.pc + 4 else s.pc + 2
  | .sneReg x y => if s.reg x = s.reg y then s.pc + 2 else s.pc + 4
  | .skp x =>
    if (s.reg x).toNat < 16 ∧ s.keys.getLsbD (s.reg x).toNat = true then s.pc + 4 else s.pc + 2
  | .sknp x =>
    if (s.reg x).toNat < 16 ∧ s.keys.getLsbD (s.reg x).toNat = false then s.pc + 4 else s.pc + 2
  | .waitKey _ => if s.keys = 0 then s.pc else s.pc + 2
  | .cls | .ldImm _ _ | .addImm _ _ | .mov _ _ | .or _ _ | .and _ _ | .xor _ _ | .add _ _ | .sub _ _
  | .shr _ _ | .subn _ _ | .shl _ _ | .ldI _ | .rnd _ _ | .drw _ _ _ | .getDt _ | .setDt _ | .setSt _
  | .addI _ | .font _ | .bcd _ | .stm _ | .ldm _ | .unknown _ => s.pc + 2

/-- The cause and the condition of the one error an instruction can raise, with the lowest offending address
(60_exceptions.md R201 to R203, R208). -/
def errorOf (s : State) : Instr → Option (Cause × Nat)
  | .ret => if s.sp = 0 then some (.stackUnderflow, s.pc.toNat) else none
  | .call _ => if s.sp = s.params.stackMax then some (.stackOverflow, s.pc.toNat) else none
  | .drw _ y n =>
    if 1 ≤ min n.toNat (32 - (s.reg y).toNat % 32) ∧
        0xFFF < s.index.toNat + min n.toNat (32 - (s.reg y).toNat % 32) - 1
      then some (.memoryFault, max s.index.toNat 0x1000) else none
  | .bcd _ => if 0xFFF < s.index.toNat + 2 then some (.memoryFault, max s.index.toNat 0x1000) else none
  | .stm x | .ldm x =>
    if 0xFFF < s.index.toNat + x.toNat then some (.memoryFault, max s.index.toNat 0x1000) else none
  | .cls | .jp _ | .seImm _ _ | .sneImm _ _ | .seReg _ _ | .ldImm _ _ | .addImm _ _ | .mov _ _ | .or _ _
  | .and _ _ | .xor _ _ | .add _ _ | .sub _ _ | .shr _ _ | .subn _ _ | .shl _ _ | .sneReg _ _ | .ldI _
  | .jpV0 _ | .rnd _ _ | .skp _ | .sknp _ | .getDt _ | .waitKey _ | .setDt _ | .setSt _ | .addI _
  | .font _ | .unknown _ => none

/-- A set, unclipped sprite bit of `DRW Vx, Vy, n` falls on column `cx` of row `cy` (40_screen.md R121). -/
def spriteBit (s : State) (x y n : Nibble) (cx cy : Nat) : Bool :=
  decide ((s.reg y).toNat % 32 ≤ cy) && decide (cy < (s.reg y).toNat % 32 + n.toNat) && decide (cy ≤ 31) &&
  decide ((s.reg x).toNat % 64 ≤ cx) && decide (cx < (s.reg x).toNat % 64 + 8) && decide (cx ≤ 63) &&
  (s.mem.read (s.dataAddr (cy - (s.reg y).toNat % 32))).getLsbD (7 - (cx - (s.reg x).toNat % 64))

/-- One iteration of a running machine with no reset, no error and an instruction that is no `w x` (a write of the timer
in question, as 60_exceptions.md R214 asks). -/
def QuietStep (w : Nibble → Instr) (s t : State) : Prop :=
  step s = .next t ∧ s.halted = false ∧ t.halted = false ∧
    (∀ image coming, s.drives ≠ .reset image :: coming) ∧
    ∀ word, s.fetch = some word → ∀ x, decode word ≠ w x

/-- `n` such iterations lead from one state to the other. -/
def QuietRun (w : Nibble → Instr) : Nat → State → State → Prop
  | 0, s, t => s = t
  | n + 1, s, t => ∃ u, QuietStep w s u ∧ QuietRun w n u t

/-- Every piece of the CORE's state and every output is the same (10_state.md R43, R40). -/
def SameCore (s t : State) : Prop :=
  t.v = s.v ∧ t.index = s.index ∧ t.pc = s.pc ∧ t.sp = s.sp ∧ t.stack = s.stack ∧ t.dt = s.dt ∧ t.st = s.st ∧
  t.fb = s.fb ∧ t.keys = s.keys ∧ t.mem = s.mem ∧ t.tickCtr = s.tickCtr ∧ t.halted = s.halted ∧ t.err = s.err ∧
  t.errPc = s.errPc ∧ t.errAddr = s.errAddr ∧ t.randPos = s.randPos ∧ t.tone = s.tone ∧
  t.unknownReport = s.unknownReport ∧ t.waiting = s.waiting

end Sys2Proof.Frame

open Sys2Proof Sys2Proof.Machine Sys2Proof.Frame

/-! ## Encoding -/

/-- 30_encoding.md sections 1, 2 and 6: encoding a well-formed instruction and decoding it again, as a word or as the two
bytes memory holds, gives it back with every operand. -/
def Obligations.DecodeUndoesEncode : Prop :=
  ∀ i : Instr, i.wellFormed = true →
    decode (encode i) = i ∧ decodeBytes (encodeBytes i) = .ok (i, [])

/-- 30_encoding.md section 2: every word is the encoding of what it decodes to, so no two words share a meaning and no
bit of a word is dropped, and what it decodes to is well formed. -/
def Obligations.EncodeUndoesDecode : Prop :=
  ∀ w : Word, encode (decode w) = w ∧ (decode w).wellFormed = true

/-- 30_encoding.md sections 2 and 3: the mnemonic a word decodes to is the one whose row's mask and match select the word,
and the word is Unknown if no row does. That every literal digit must match is the spec's decision D14 (log 22). -/
def Obligations.DecodeFollowsOpcodeMap : Prop :=
  ∀ w : Word,
    (∀ r, rowOf (decode w) = some r → r ∈ opcodeRows ∧ w &&& r.mask = r.value) ∧
    (rowOf (decode w) = none ↔ ∀ r ∈ opcodeRows, w &&& r.mask ≠ r.value) ∧
    ((∀ r ∈ opcodeRows, w &&& r.mask ≠ r.value) → decode w = .unknown w)

/-- 30_encoding.md section 2: no two patterns overlap. -/
def Obligations.OpcodeRowsNeverOverlap : Prop :=
  ∀ w : Word, (opcodeRows.filter (·.selects w)).length ≤ 1

/-- Words of 95_test_vectors.md 2.1 decode as it lists (a sanity statement). -/
def Obligations.SpecWordsDecode : Prop :=
  decode 0x00E0 = .cls ∧ decode 0x2ABC = .call 0xABC ∧ decode 0x3F00 = .seImm 15 0x00 ∧
  decode 0x5AB0 = .seReg 10 11 ∧ decode 0x5AB1 = .unknown 0x5AB1 ∧ decode 0x812E = .shl 1 2 ∧
  decode 0x8128 = .unknown 0x8128 ∧ decode 0xAFFF = .ldI 0xFFF ∧ decode 0xDABF = .drw 10 11 15 ∧
  decode 0xEFA1 = .sknp 15 ∧ decode 0xF755 = .stm 7 ∧ decode 0xF075 = .unknown 0xF075

/-! ## The iteration -/

/-- 20_memory.md section 2 (D29): the fetched word is the byte at PC times 256 plus the byte at PC + 1, for every PC up to
0xFFE, odd ones included (D2); above it there is none. -/
def Obligations.FetchIsBigEndian : Prop :=
  ∀ s : State,
    (s.pc.toNat ≤ 0xFFE → ∃ w, s.fetch = some w ∧
      w.toNat = (s.mem.read s.pc.toNat).toNat * 256 + (s.mem.read (s.pc.toNat + 1)).toNat) ∧
    (0xFFE < s.pc.toNat → s.fetch = none)

/-- 30_encoding.md section 5 and 60_exceptions.md section 7 (D20): when the two bytes at PC are those of a well-formed
instruction, the step is exec of it on the state with the keys sampled (the outputs of the last cycle ended), then, unless
it raised a fatal error, the presentation and the tick step; whether the host lets the inputs stand or drives them. -/
def Obligations.StepRunsDecodedInstruction : Prop :=
  ∀ (i : Instr) (s d : State), i.wellFormed = true → s.pc.toNat ≤ 0xFFE →
    [s.mem.read s.pc.toNat, s.mem.read (s.pc.toNat + 1)] = encodeBytes i → Starts s d →
      step s = endIteration (exec i (sampled d)) ∧
      ∀ t, exec i (sampled d) = .next t → step s = .next (if t.halted then t else t.present.tickStep)

/-- 20_memory.md section 2 and 60_exceptions.md section 2 (D15, D16, D29): a fetch above 0xFFE raises MemoryFault with the
offending address max(PC, 0x1000), no instruction runs, and nothing but the latch changes (the keys are sampled and the
outputs of the last cycle ended before the cycle); whether the host lets the inputs stand or drives them. -/
def Obligations.FetchOutOfRangeRaises : Prop :=
  ∀ s d : State, Starts s d → 0xFFE < s.pc.toNat →
    step s = .next (raised (sampled d) .memoryFault (max s.pc.toNat 0x1000))

/-- 60_exceptions.md section 7 (D24): quit at the start of an iteration halts the machine with err unchanged, runs no cycle
and keeps all other state; that the outputs stay too is the model's choice (log 30). -/
def Obligations.QuitHaltsBeforeTheCycle : Prop :=
  ∀ s : State, s.params.ok = true → s.halted = false →
    (s.drives = [] → s.quitIn = true → step s = .next { s with halted := true }) ∧
    ∀ k tick coming, s.drives = .drive k true tick :: coming →
      step s = .next { s with
        halted := true, keysIn := k, quitIn := true, tickIn := tick, drives := coming }

/-- 60_exceptions.md section 2 (D30) and logs 8 and 9, the model's choice of how a halted machine steps: with no reset it
runs no cycle; it stands still if quit halted it, and stops with the latched error if an error did. -/
def Obligations.HaltedRunsNoCycle : Prop :=
  ∀ s : State, s.params.ok = true → s.halted = true →
    (∀ image coming, s.drives ≠ .reset image :: coming) →
    (s.err = .none → ∃ t, step s = .next t ∧
      t = { s with keysIn := t.keysIn, quitIn := t.quitIn, tickIn := t.tickIn, drives := s.drives.tail }) ∧
    (s.err = .memoryFault → step s = .fault (.memoryFault s.errPc s.errAddr)) ∧
    (s.err = .stackOverflow → step s = .fault (.stackOverflow s.errPc)) ∧
    (s.err = .stackUnderflow → step s = .fault (.stackUnderflow s.errPc)) ∧
    (s.err = .imageTooLarge → step s = .fault .imageTooLarge)

/-- 60_exceptions.md section 2 (D30): only reset leaves Halted. -/
def Obligations.OnlyResetLeavesHalted : Prop :=
  ∀ s t : State, s.halted = true → step s = .next t → t.halted = false →
    ∃ image coming, s.drives = .reset image :: coming ∧ t = s.takeReset image coming

/-- 93_implementation_defined.md section 1: a machine that no error has halted always has a next state, whatever word it
fetches and whatever the host drives. That a machine halted by quit has one too is the model's choice (log 9), and so is
the condition on the parameters (log 29). -/
def Obligations.StepAlwaysAnswersNext : Prop :=
  ∀ s : State, s.params.ok = true → (s.halted = true → s.err = .none) → ∃ t, step s = .next t

/-- 10_state.md section 11 and 70_reset_and_hazards.md section 1 (D5, D10, D16, D19, D30; log 12 for the outputs): what reset
and a load of an image that fits leave, for all parameters. A step takes the reset input from any state, Halted included,
with any image, and leaves the CORE as that; that the parameters and what the host drives stay, and that reset is a step
of its own, is the model's choice (log 7). -/
def Obligations.ResetReinitialises : Prop :=
  (∀ (p : Config.Params) (image : List Byte), image.length ≤ 3584 →
    let t := State.resetWith p image
    (∀ r, t.reg r = 0) ∧ t.index = 0 ∧ t.pc = 0x200 ∧ t.sp = 0 ∧ t.stack = List.replicate p.stackMax 0 ∧
    t.dt = p.dtReset ∧ t.st = p.stReset ∧ (∀ x y, pixel t.fb x y = false) ∧ t.keys = 0 ∧ t.tickCtr = 0 ∧
    t.halted = false ∧ t.err = .none ∧ t.errPc = 0 ∧ t.errAddr = 0 ∧ t.randPos = 0 ∧
    (t.tone = true ↔ 0 < p.stReset.toNat) ∧ t.unknownReport = none ∧ t.waiting = false ∧ t.params = p) ∧
  ∀ (s : State) (image : List Byte) (coming : List HostEvent),
    s.params.ok = true → s.drives = .reset image :: coming →
      ∃ t, step s = .next t ∧ t = s.takeReset image coming ∧ SameCore (State.resetWith s.params image) t ∧
        t.params = s.params ∧ t.keysIn = s.keysIn ∧ t.quitIn = s.quitIn ∧ t.tickIn = s.tickIn ∧
        t.randIn = s.randIn ∧ t.drives = coming ∧ t.runNo = s.runNo + 1

/-- 20_memory.md section 5 (D9): after reset and load, FONT is at 0x000 to 0x04F, the image at 0x200 onward, and every
other byte is 0, for every FONT and every image that fits. -/
def Obligations.LoadedMemoryContents : Prop :=
  ∀ (p : Config.Params) (image : List Byte), image.length ≤ 3584 →
    let m := (State.resetWith p image).mem
    (∀ (a : Nat) (h : a < 80), m.read a = p.font[a]) ∧
    (∀ (j : Nat) (h : j < image.length), m.read (0x200 + j) = image[j]) ∧
    ∀ a, 80 ≤ a → (a < 0x200 ∨ 0x200 + image.length ≤ a) → m.read a = 0

/-- 70_reset_and_hazards.md section 1 and 60_exceptions.md section 1 (D26; log 8): an image of more than 3584 bytes halts
the machine at load with ImageTooLarge latched and memory all zero, and no cycle ever runs. -/
def Obligations.ImageTooLargeHaltsAtLoad : Prop :=
  ∀ (p : Config.Params) (image : List Byte), 3584 < image.length →
    let t := State.resetWith p image
    t.halted = true ∧ t.err = .imageTooLarge ∧ t.errPc = 0 ∧ t.errAddr = 0 ∧ (∀ a, t.mem.read a = 0) ∧
    (p.ok = true → step t = .fault .imageTooLarge)

/-- 60_exceptions.md section 4 (D11; log 28 for the tick input): a tick step counts the iteration; in the iteration that
reaches TICK_THRESHOLD, or that has the tick input in the real-time variant, it clears the count and both timers count
down, stopping at 0; nothing else changes. -/
def Obligations.TickStepDividesIterations : Prop :=
  ∀ s : State,
    (s.params.tickSource = .divider →
      (s.params.tickThreshold ≤ s.tickCtr + 1 → s.tickStep.tickCtr = 0 ∧
        s.tickStep.dt.toNat = s.dt.toNat - 1 ∧ s.tickStep.st.toNat = s.st.toNat - 1) ∧
      (s.tickCtr + 1 < s.params.tickThreshold → s.tickStep = { s with tickCtr := s.tickCtr + 1 })) ∧
    (s.params.tickSource = .external →
      (s.tickIn = true → s.tickStep.tickCtr = 0 ∧
        s.tickStep.dt.toNat = s.dt.toNat - 1 ∧ s.tickStep.st.toNat = s.st.toNat - 1) ∧
      (s.tickIn = false → s.tickStep = { s with tickCtr := s.tickCtr + 1 })) ∧
    s.tickStep = { s with dt := s.tickStep.dt, st := s.tickStep.st, tickCtr := s.tickStep.tickCtr }

/-- 60_exceptions.md section 4, the tick law (D11, 90_conflicts.md C12): over n iterations that do not write the timer,
from tick_ctr = 0, a timer falls by floor(n / TICK_THRESHOLD), and never below 0, whether or not the other timer is
written. -/
def Obligations.TimersFallOncePerThreshold : Prop :=
  ∀ (n : Nat) (s t : State), s.params.tickSource = .divider → s.tickCtr = 0 →
    (QuietRun .setDt n s t → t.dt.toNat = s.dt.toNat - n / s.params.tickThreshold) ∧
    (QuietRun .setSt n s t → t.st.toNat = s.st.toNat - n / s.params.tickThreshold)

/-- 10_state.md section 10 and 60_exceptions.md sections 1 and 7 (D20, D23, D31; log 12): after an iteration without
error, whether the host let the inputs stand or drove them, the keys are the levels sampled in that iteration, the report
is valid exactly when the word was Unknown and names it and its address, `waiting` is 1 exactly when a WAIT_KEY found no
key, and `tone` is ST > 0 before the tick step. -/
def Obligations.IterationPresentsOutputs : Prop :=
  ∀ (s d t : State) (w : Word), Starts s d → s.fetch = some w → step s = .next t → t.halted = false →
    t.keys = d.keysIn ∧
    (decode w = .unknown w → t.unknownReport = some { word := w, pc := s.pc }) ∧
    (decode w ≠ .unknown w → t.unknownReport = none) ∧
    (t.waiting = true ↔ ∃ x, decode w = .waitKey x ∧ d.keysIn = 0) ∧
    ∃ u, exec (decode w) (sampled d) = .next u ∧ (t.tone = true ↔ 0 < u.st.toNat)

/-! ## Invariants -/

/-- Every step keeps the invariant of Safety.lean: the parameters' constraints (log 29), the canonical form of memory
(log 10), PC at most 0x10FE (10_state.md section 3), the stack's depth and entries (sections 4; D3, D4), tick_ctr below
TICK_THRESHOLD (section 9) and the form of the error latch. -/
def Obligations.StepKeepsInv : Prop :=
  ∀ s t : State, s.Inv → step s = .next t → t.Inv

/-- The reset state, and the state after any reset and load with parameters that keep their constraints, meet the
invariant. -/
def Obligations.ResetHasInv : Prop :=
  State.reset.Inv ∧ State.resetWith Config.reference [] = State.reset ∧
    ∀ (p : Config.Params) (image : List Byte), p.ok = true → (State.resetWith p image).Inv

/-- 20_memory.md section 1 (log 10): two memories in canonical form whose 4096 bytes read the same are equal. -/
def Obligations.EqualReadsEqualMemory : Prop :=
  ∀ m n : Memory, m.wf = true → n.wf = true → (∀ a, a < 0x1000 → m.read a = n.read a) → m = n

/-! ## Whole-machine rules over all instructions -/

/-- 60_exceptions.md sections 1 and 2 (D15, D16): an instruction raises an error exactly under the one condition its rule
names; then nothing changes but the latch, which holds the cause, the instruction's address and the offending
address; otherwise `halted` and the latch stand. -/
def Obligations.FatalErrorsArePrecise : Prop :=
  ∀ (i : Instr) (s : State),
    (∀ c a, errorOf s i = some (c, a) → exec i s = .next (raised s c a)) ∧
    (errorOf s i = none → ∃ t, exec i s = .next t ∧ t.halted = s.halted ∧ t.err = s.err ∧
      t.errPc = s.errPc ∧ t.errAddr = s.errAddr)

/-- 10_state.md section 1: an instruction writes no V register but those the table of R22 names, VF among them only for
the flag-writing instructions of R21. -/
def Obligations.RegistersWrittenAsTabled : Prop :=
  ∀ (i : Instr) (s t : State), exec i s = .next t → ∀ r, ¬ writes i r → t.reg r = s.reg r

/-- 10_state.md section 3 (D1, D3), 42_skip.md and 45_keys_timers.md for the conditions of the skips (D13, log 21, for SKNP
with V[X] of 16 or more): PC after each instruction that raises no error, and PC unchanged by one that does (D15). -/
def Obligations.PcAfterAsTabled : Prop :=
  ∀ (i : Instr) (s t : State), exec i s = .next t →
    (errorOf s i = none → t.pc = pcAfter s i) ∧ (errorOf s i ≠ none → t.pc = s.pc)

/-- 10_state.md section 2: I is written only by LD_I, ADD_I and FONT. -/
def Obligations.IndexWrittenByThree : Prop :=
  ∀ (i : Instr) (s t : State), exec i s = .next t → t.index ≠ s.index →
    (∃ nnn, i = .ldI nnn) ∨ (∃ x, i = .addI x) ∨ (∃ x, i = .font x)

/-- 10_state.md section 6 and 20_memory.md section 6: memory is written only by BCD and STM, the framebuffer only by CLS
and DRW. -/
def Obligations.MemoryAndScreenWriters : Prop :=
  ∀ (i : Instr) (s t : State), exec i s = .next t →
    (t.mem ≠ s.mem → (∃ x, i = .bcd x) ∨ ∃ x, i = .stm x) ∧
    (t.fb ≠ s.fb → i = .cls ∨ ∃ x y n, i = .drw x y n)

/-- 10_state.md sections 4, 5 and 9 and 20_memory.md section 1: the stack is reached only by CALL and RET, DT is written
only by SET_DT, ST only by SET_ST, and only RND takes a random byte. -/
def Obligations.StackTimerRandomWriters : Prop :=
  ∀ (i : Instr) (s t : State), exec i s = .next t →
    (t.sp ≠ s.sp ∨ t.stack ≠ s.stack → i = .ret ∨ ∃ nnn, i = .call nnn) ∧
    (t.dt ≠ s.dt → ∃ x, i = .setDt x) ∧ (t.st ≠ s.st → ∃ x, i = .setSt x) ∧
    (t.randPos ≠ s.randPos ∨ t.randIn ≠ s.randIn → ∃ x nn, i = .rnd x nn)

/-- 10_state.md sections 7, 9 and 10: no instruction writes a key, tick_ctr, an input, `tone`, a parameter or what the
host is to do. -/
def Obligations.HostSideIsUntouched : Prop :=
  ∀ (i : Instr) (s t : State), exec i s = .next t →
    t.keys = s.keys ∧ t.tickCtr = s.tickCtr ∧ t.keysIn = s.keysIn ∧ t.quitIn = s.quitIn ∧
    t.tickIn = s.tickIn ∧ t.tone = s.tone ∧ t.params = s.params ∧ t.drives = s.drives ∧ t.runNo = s.runNo

/-! ## Screen -/

/-- 40_screen.md R120: CLS clears every pixel and changes nothing else. -/
def Obligations.ClsClearsScreen : Prop :=
  decode 0x00E0 = .cls ∧
  ∀ s : State, ∃ t, exec .cls s = .next t ∧ (∀ x y, x ≤ 63 → y ≤ 31 → pixel t.fb x y = false) ∧
    t.pc = s.pc + 2 ∧ t = { s with fb := t.fb, pc := t.pc } ∧ SameMemory s t

/-- 40_screen.md section DXYN (D17, D18): when the rows that are drawn are in range, or none is, DRW flips exactly the
pixels under a set, unclipped sprite bit, VF is 1 if one of them was on and else 0, and nothing else changes. -/
def Obligations.DrwFlipsSpritePixels : Prop :=
  ∀ (x y n : Nibble) (s : State), errorOf s (.drw x y n) = none →
    ∃ t, exec (.drw x y n) s = .next t ∧
      (∀ cx cy, cx ≤ 63 → cy ≤ 31 → pixel t.fb cx cy = (pixel s.fb cx cy ^^ spriteBit s x y n cx cy)) ∧
      ((∃ cx cy, spriteBit s x y n cx cy = true ∧ pixel s.fb cx cy = true) → t.reg 15 = 1) ∧
      ((¬ ∃ cx cy, spriteBit s x y n cx cy = true ∧ pixel s.fb cx cy = true) → t.reg 15 = 0) ∧
      t.pc = s.pc + 2 ∧ OtherRegs s t [15] ∧ t = { s with fb := t.fb, v := t.v, pc := t.pc } ∧
      SameMemory s t

/-- 40_screen.md R122 (a), an inference of the spec (90_conflicts.md C11): drawing the same sprite twice at the same
position restores the framebuffer, and the second VF says whether a set sprite bit fell on a pixel that was off. -/
def Obligations.DrwTwiceRestoresScreen : Prop :=
  ∀ (x y n : Nibble) (s t : State), errorOf s (.drw x y n) = none → exec (.drw x y n) s = .next t →
    (t.reg x).toNat % 64 = (s.reg x).toNat % 64 → (t.reg y).toNat % 32 = (s.reg y).toNat % 32 →
    ∃ u, exec (.drw x y n) t = .next u ∧ u.fb = s.fb ∧
      (u.reg 15 = 1 ↔ ∃ cx cy, spriteBit s x y n cx cy = true ∧ pixel s.fb cx cy = false) ∧
      (u.reg 15 = 0 ∨ u.reg 15 = 1)

/-- 40_screen.md section DXYN (D15, D16, D17): DRW raises MemoryFault before any effect when a row it draws is out of
range. -/
def Obligations.DrwOutOfRangeRaises : Prop :=
  ∀ (x y n : Nibble) (s : State),
    1 ≤ min n.toNat (32 - (s.reg y).toNat % 32) →
    0xFFF < s.index.toNat + min n.toNat (32 - (s.reg y).toNat % 32) - 1 →
    exec (.drw x y n) s = .next (raised s .memoryFault (max s.index.toNat 0x1000))

/-! ## Flow -/

/-- 41_flow.md R132: JP sets PC to its literal and changes nothing else. -/
def Obligations.JpJumpsToLiteral : Prop :=
  ∀ (nnn : Addr12) (s : State), decode (0x1#4 ++ nnn) = .jp nnn ∧
    ∃ t, exec (.jp nnn) s = .next t ∧ t.pc.toNat = nnn.toNat ∧ OnlyPc s t

/-- 41_flow.md section BNNN (D1, D28): JP_V0 sets PC to NNN + V0, a sum that does not wrap, and changes nothing else. -/
def Obligations.JpV0JumpsToSum : Prop :=
  ∀ (nnn : Addr12) (s : State), decode (0xB#4 ++ nnn) = .jpV0 nnn ∧
    ∃ t, exec (.jpV0 nnn) s = .next t ∧ t.pc.toNat = nnn.toNat + (s.reg 0).toNat ∧ OnlyPc s t

/-- 41_flow.md section 2NNN (D3, D4, D15, D16): CALL below STACK_MAX pushes its own address and jumps; at STACK_MAX it
raises StackOverflow and pushes nothing. The stack has one slot for each of STACK_MAX (the invariant StackOk). -/
def Obligations.CallPushesOwnAddress : Prop :=
  ∀ (nnn : Addr12) (s : State), decode (0x2#4 ++ nnn) = .call nnn ∧
    (s.StackOk → s.sp ≠ s.params.stackMax →
      ∃ t, exec (.call nnn) s = .next t ∧ t.sp = s.sp + 1 ∧ t.stack[s.sp]? = some s.pc ∧
        (∀ k, k ≠ s.sp → t.stack[k]? = s.stack[k]?) ∧ t.pc.toNat = nnn.toNat ∧
        t = { s with stack := t.stack, sp := t.sp, pc := t.pc } ∧ SameMemory s t) ∧
    (s.sp = s.params.stackMax → exec (.call nnn) s = .next (raised s .stackOverflow s.pc.toNat))

/-- 41_flow.md section 00EE (D3, D5, D15, D16): RET pops the top entry, continues at the entry plus 2 and leaves the slots
as they are; on an empty stack it raises StackUnderflow. -/
def Obligations.RetReturnsPastCall : Prop :=
  decode 0x00EE = .ret ∧ ∀ s : State,
    (s.StackOk → s.sp ≠ 0 →
      ∃ e t, s.stack[s.sp - 1]? = some e ∧ exec .ret s = .next t ∧ t.pc = e + 2 ∧ t.sp = s.sp - 1 ∧
        t = { s with sp := t.sp, pc := t.pc } ∧ SameMemory s t) ∧
    (s.sp = 0 → exec .ret s = .next (raised s .stackUnderflow s.pc.toNat))

/-- 41_flow.md sections 00EE and 2NNN, the source's round trip (D3): a RET right after a CALL continues at the
instruction after the CALL with the depth as before, and no valid entry changed. -/
def Obligations.CallThenRetRoundTrip : Prop :=
  ∀ (nnn : Addr12) (s : State), s.StackOk → s.sp ≠ s.params.stackMax → s.pc.toNat ≤ 0xFFE →
    ∃ t u, exec (.call nnn) s = .next t ∧ exec .ret t = .next u ∧ u.pc.toNat = s.pc.toNat + 2 ∧
      u.sp = s.sp ∧ u.stack.take u.sp = s.stack.take s.sp ∧ u.StackOk ∧ u.v = s.v ∧ u.mem = s.mem

/-! ## Skips -/

/-- 42_skip.md R141, R142: the skips on a literal. -/
def Obligations.SkipsOnLiteral : Prop :=
  ∀ (x : Nibble) (nn : Byte) (s : State),
    decode (0x3#4 ++ x ++ nn) = .seImm x nn ∧ decode (0x4#4 ++ x ++ nn) = .sneImm x nn ∧
    (∃ t, exec (.seImm x nn) s = .next t ∧ OnlyPc s t ∧
      (s.reg x = nn → t.pc = s.pc + 4) ∧ (s.reg x ≠ nn → t.pc = s.pc + 2)) ∧
    ∃ t, exec (.sneImm x nn) s = .next t ∧ OnlyPc s t ∧
      (s.reg x ≠ nn → t.pc = s.pc + 4) ∧ (s.reg x = nn → t.pc = s.pc + 2)

/-- 42_skip.md sections 5XY0 and 9XY0: the skips on two registers. That the neighbouring words are Unknown is the strict
matching of the spec's decision D14 (log 22). -/
def Obligations.SkipsOnRegisters : Prop :=
  (∀ (x y n : Nibble), n ≠ 0 →
    decode (0x5#4 ++ x ++ y ++ n) = .unknown (0x5#4 ++ x ++ y ++ n) ∧
    decode (0x9#4 ++ x ++ y ++ n) = .unknown (0x9#4 ++ x ++ y ++ n)) ∧
  ∀ (x y : Nibble) (s : State),
    decode (0x5#4 ++ x ++ y ++ 0#4) = .seReg x y ∧ decode (0x9#4 ++ x ++ y ++ 0#4) = .sneReg x y ∧
    (∃ t, exec (.seReg x y) s = .next t ∧ OnlyPc s t ∧
      (s.reg x = s.reg y → t.pc = s.pc + 4) ∧ (s.reg x ≠ s.reg y → t.pc = s.pc + 2)) ∧
    ∃ t, exec (.sneReg x y) s = .next t ∧ OnlyPc s t ∧
      (s.reg x ≠ s.reg y → t.pc = s.pc + 4) ∧ (s.reg x = s.reg y → t.pc = s.pc + 2)

/-! ## ALU -/

/-- 43_alu.md R151, R152, R153: LD_IMM, ADD_IMM (wrapping, no flag) and MOV write V[X] alone. -/
def Obligations.LoadsAndWrappingAdd : Prop :=
  (∀ (x : Nibble) (nn : Byte) (s : State), decode (0x6#4 ++ x ++ nn) = .ldImm x nn ∧
    ∃ t, exec (.ldImm x nn) s = .next t ∧ t.reg x = nn ∧ t.pc = s.pc + 2 ∧ OnlyRegs s t [x]) ∧
  (∀ (x : Nibble) (nn : Byte) (s : State), decode (0x7#4 ++ x ++ nn) = .addImm x nn ∧
    ∃ t, exec (.addImm x nn) s = .next t ∧ (t.reg x).toNat = ((s.reg x).toNat + nn.toNat) % 256 ∧
      t.pc = s.pc + 2 ∧ OnlyRegs s t [x]) ∧
  ∀ (x y : Nibble) (s : State), decode (0x8#4 ++ x ++ y ++ 0x0#4) = .mov x y ∧
    ∃ t, exec (.mov x y) s = .next t ∧ t.reg x = s.reg y ∧ t.pc = s.pc + 2 ∧ OnlyRegs s t [x]

/-- 43_alu.md R155, R157: AND and XOR write V[X] alone, VF only if X is 15. -/
def Obligations.AndXorBitwise : Prop :=
  ∀ (x y : Nibble) (s : State),
    decode (0x8#4 ++ x ++ y ++ 0x2#4) = .and x y ∧ decode (0x8#4 ++ x ++ y ++ 0x3#4) = .xor x y ∧
    (∃ t, exec (.and x y) s = .next t ∧
      (∀ k, (t.reg x).getLsbD k = ((s.reg x).getLsbD k && (s.reg y).getLsbD k)) ∧
      t.pc = s.pc + 2 ∧ OnlyRegs s t [x]) ∧
    ∃ t, exec (.xor x y) s = .next t ∧
      (∀ k, (t.reg x).getLsbD k = ((s.reg x).getLsbD k ^^ (s.reg y).getLsbD k)) ∧
      t.pc = s.pc + 2 ∧ OnlyRegs s t [x]

/-- 43_alu.md section 8XY1: OR writes V[X] alone; that VF is untouched is an inference of the spec's R154. -/
def Obligations.OrBitwise : Prop :=
  ∀ (x y : Nibble) (s : State), decode (0x8#4 ++ x ++ y ++ 0x1#4) = .or x y ∧
    ∃ t, exec (.or x y) s = .next t ∧
      (∀ k, (t.reg x).getLsbD k = ((s.reg x).getLsbD k || (s.reg y).getLsbD k)) ∧
      t.pc = s.pc + 2 ∧ OnlyRegs s t [x]

/-- 43_alu.md section 8XY4 (D6 for X = 15): V[X] is the sum modulo 256, VF the carry, written last. -/
def Obligations.AddSetsCarry : Prop :=
  ∀ (x y : Nibble) (s : State), decode (0x8#4 ++ x ++ y ++ 0x4#4) = .add x y ∧
    ∃ t, exec (.add x y) s = .next t ∧
      (x ≠ 15 → (t.reg x).toNat = ((s.reg x).toNat + (s.reg y).toNat) % 256) ∧
      t.reg 15 = (if 255 < (s.reg x).toNat + (s.reg y).toNat then 1 else 0) ∧
      t.pc = s.pc + 2 ∧ OnlyRegs s t [x, 15]

/-- 43_alu.md sections 8XY5 and 8XY7 (D6 for X = 15): V[X] is the difference modulo 256, VF 1 when no borrow occurred. -/
def Obligations.SubtractsSetNotBorrow : Prop :=
  ∀ (x y : Nibble) (s : State),
    decode (0x8#4 ++ x ++ y ++ 0x5#4) = .sub x y ∧ decode (0x8#4 ++ x ++ y ++ 0x7#4) = .subn x y ∧
    (∃ t, exec (.sub x y) s = .next t ∧
      (x ≠ 15 → (t.reg x).toNat = ((s.reg x).toNat + 256 - (s.reg y).toNat) % 256) ∧
      t.reg 15 = (if (s.reg y).toNat ≤ (s.reg x).toNat then 1 else 0) ∧
      t.pc = s.pc + 2 ∧ OnlyRegs s t [x, 15]) ∧
    ∃ t, exec (.subn x y) s = .next t ∧
      (x ≠ 15 → (t.reg x).toNat = ((s.reg y).toNat + 256 - (s.reg x).toNat) % 256) ∧
      t.reg 15 = (if (s.reg x).toNat ≤ (s.reg y).toNat then 1 else 0) ∧
      t.pc = s.pc + 2 ∧ OnlyRegs s t [x, 15]

/-- 43_alu.md sections 8XY6 and 8XYE (D6 for X = 15): V[Y] shifted by one goes to V[X], the bit shifted out to VF. -/
def Obligations.ShiftsSetShiftedBit : Prop :=
  ∀ (x y : Nibble) (s : State),
    decode (0x8#4 ++ x ++ y ++ 0x6#4) = .shr x y ∧ decode (0x8#4 ++ x ++ y ++ 0xE#4) = .shl x y ∧
    (∃ t, exec (.shr x y) s = .next t ∧ (x ≠ 15 → (t.reg x).toNat = (s.reg y).toNat / 2) ∧
      (t.reg 15).toNat = (s.reg y).toNat % 2 ∧ t.pc = s.pc + 2 ∧ OnlyRegs s t [x, 15]) ∧
    ∃ t, exec (.shl x y) s = .next t ∧ (x ≠ 15 → (t.reg x).toNat = (s.reg y).toNat * 2 % 256) ∧
      (t.reg 15).toNat = (s.reg y).toNat / 128 ∧ t.pc = s.pc + 2 ∧ OnlyRegs s t [x, 15]

/-- 43_alu.md section CXNN (D19; log 5): RND takes one byte, the first the host has queued or else the free value of RAND
at rand_pos, and writes it under the mask to V[X]; the statement holds for every value of the free byte. -/
def Obligations.RndMasksOneDraw : Prop :=
  ∀ (x : Nibble) (nn : Byte) (s : State), decode (0xC#4 ++ x ++ nn) = .rnd x nn ∧
    ∃ t, exec (.rnd x nn) s = .next t ∧
      (∀ b rest, s.randIn = b :: rest → t.reg x = b &&& nn ∧ t.randIn = rest) ∧
      (s.randIn = [] → t.reg x = Config.randByte s.runNo s.randPos &&& nn ∧ t.randIn = []) ∧
      t.randPos = s.randPos + 1 ∧ t.pc = s.pc + 2 ∧ OtherRegs s t [x] ∧
      t = { s with v := t.v, pc := t.pc, randPos := t.randPos, randIn := t.randIn } ∧ SameMemory s t

/-! ## Index and memory -/

/-- 44_index_memory.md R170, R172: LD_I and FONT write I alone. -/
def Obligations.IndexLoads : Prop :=
  (∀ (nnn : Addr12) (s : State), decode (0xA#4 ++ nnn) = .ldI nnn ∧
    ∃ t, exec (.ldI nnn) s = .next t ∧ t.index.toNat = nnn.toNat ∧ t.pc = s.pc + 2 ∧ OnlyIndex s t) ∧
  ∀ (x : Nibble) (s : State), decode (0xF#4 ++ x ++ 0x29#8) = .font x ∧
    ∃ t, exec (.font x) s = .next t ∧ t.index.toNat = (s.reg x).toNat % 16 * 5 ∧
      t.pc = s.pc + 2 ∧ OnlyIndex s t

/-- 44_index_memory.md section FX1E (D7): ADD_I adds V[X] to I modulo 65536 and writes I alone. -/
def Obligations.AddIWrapsIndex : Prop :=
  ∀ (x : Nibble) (s : State), decode (0xF#4 ++ x ++ 0x1E#8) = .addI x ∧
    ∃ t, exec (.addI x) s = .next t ∧ t.index.toNat = (s.index.toNat + (s.reg x).toNat) % 65536 ∧
      t.pc = s.pc + 2 ∧ OnlyIndex s t

/-- 44_index_memory.md section FX33 (D28): BCD stores the three digits at I, I + 1, I + 2 and nothing else. Memory is in
canonical form (the invariant). -/
def Obligations.BcdStoresDigits : Prop :=
  ∀ (x : Nibble) (s : State), decode (0xF#4 ++ x ++ 0x33#8) = .bcd x ∧
    (s.mem.wf = true → s.index.toNat + 2 ≤ 0xFFF →
      ∃ t, exec (.bcd x) s = .next t ∧
        (t.mem.read (s.dataAddr 0)).toNat = (s.reg x).toNat / 100 ∧
        (t.mem.read (s.dataAddr 1)).toNat = (s.reg x).toNat / 10 % 10 ∧
        (t.mem.read (s.dataAddr 2)).toNat = (s.reg x).toNat % 10 ∧
        t.pc = s.pc + 2 ∧ OnlyStored s t (s.dataAddr 0) 3)

/-- 44_index_memory.md section FX55 (D28): STM stores V0 to V[X] from I upward and nothing else. Memory is in canonical
form (the invariant). -/
def Obligations.StmStoresRegisters : Prop :=
  ∀ (x : Nibble) (s : State), decode (0xF#4 ++ x ++ 0x55#8) = .stm x ∧
    (s.mem.wf = true → s.index.toNat + x.toNat ≤ 0xFFF →
      ∃ t, exec (.stm x) s = .next t ∧
        (∀ r : Nibble, r.toNat ≤ x.toNat → t.mem.read (s.dataAddr r.toNat) = s.reg r) ∧
        t.pc = s.pc + 2 ∧ OnlyStored s t (s.dataAddr 0) (x.toNat + 1))

/-- 44_index_memory.md section FX65 (D28): LDM loads V0 to V[X] from I upward and changes no other register. -/
def Obligations.LdmLoadsRegisters : Prop :=
  ∀ (x : Nibble) (s : State), decode (0xF#4 ++ x ++ 0x65#8) = .ldm x ∧
    (s.index.toNat + x.toNat ≤ 0xFFF →
      ∃ t, exec (.ldm x) s = .next t ∧
        (∀ r : Nibble, r.toNat ≤ x.toNat → t.reg r = s.mem.read (s.dataAddr r.toNat)) ∧
        (∀ r : Nibble, x.toNat < r.toNat → t.reg r = s.reg r) ∧
        t.pc = s.pc + 2 ∧ t = { s with v := t.v, pc := t.pc } ∧ SameMemory s t)

/-- 44_index_memory.md sections FX33, FX55, FX65 (D15, D16, D28): BCD, STM and LDM raise MemoryFault before any effect when
their range leaves memory. -/
def Obligations.BlockAccessOutOfRangeRaises : Prop :=
  ∀ (x : Nibble) (s : State),
    (0xFFF < s.index.toNat + 2 →
      exec (.bcd x) s = .next (raised s .memoryFault (max s.index.toNat 0x1000))) ∧
    (0xFFF < s.index.toNat + x.toNat →
      exec (.stm x) s = .next (raised s .memoryFault (max s.index.toNat 0x1000)) ∧
      exec (.ldm x) s = .next (raised s .memoryFault (max s.index.toNat 0x1000)))

/-- 44_index_memory.md R177, an inference of the spec: LDM after STM restores V0 to V[X] whatever the registers held in
between, as long as I and the stored bytes stand. -/
def Obligations.StmLdmRoundTrip : Prop :=
  ∀ (x : Nibble) (s t u : State), s.mem.wf = true → s.index.toNat + x.toNat ≤ 0xFFF →
    exec (.stm x) s = .next t → u.index = t.index →
    (∀ k, k ≤ x.toNat → u.mem.read (t.dataAddr k) = t.mem.read (t.dataAddr k)) →
    ∃ w, exec (.ldm x) u = .next w ∧ ∀ r : Nibble, r.toNat ≤ x.toNat → w.reg r = s.reg r

/-! ## Keys, timers and Unknown -/

/-- 45_keys_timers.md R180: SKP skips exactly when V[X] is below 16 and that key is pressed. -/
def Obligations.SkpSkipsOnPressedKey : Prop :=
  ∀ (x : Nibble) (s : State), decode (0xE#4 ++ x ++ 0x9E#8) = .skp x ∧
    ∃ t, exec (.skp x) s = .next t ∧ OnlyPc s t ∧
      ((s.reg x).toNat < 16 → s.keys.getLsbD (s.reg x).toNat = true → t.pc = s.pc + 4) ∧
      ((s.reg x).toNat < 16 → s.keys.getLsbD (s.reg x).toNat = false → t.pc = s.pc + 2) ∧
      (16 ≤ (s.reg x).toNat → t.pc = s.pc + 2)

/-- 45_keys_timers.md section EXA1 (D13): SKNP skips exactly when V[X] is below 16 and that key is not pressed. -/
def Obligations.SknpSkipsOnReleasedKey : Prop :=
  ∀ (x : Nibble) (s : State), decode (0xE#4 ++ x ++ 0xA1#8) = .sknp x ∧
    ∃ t, exec (.sknp x) s = .next t ∧ OnlyPc s t ∧
      ((s.reg x).toNat < 16 → s.keys.getLsbD (s.reg x).toNat = false → t.pc = s.pc + 4) ∧
      ((s.reg x).toNat < 16 → s.keys.getLsbD (s.reg x).toNat = true → t.pc = s.pc + 2) ∧
      (16 ≤ (s.reg x).toNat → t.pc = s.pc + 2)

/-- 45_keys_timers.md R182: GET_DT writes DT to V[X] alone and leaves DT. -/
def Obligations.GetDtReadsDelayTimer : Prop :=
  ∀ (x : Nibble) (s : State), decode (0xF#4 ++ x ++ 0x07#8) = .getDt x ∧
    ∃ t, exec (.getDt x) s = .next t ∧ t.reg x = s.dt ∧ t.dt = s.dt ∧ t.pc = s.pc + 2 ∧ OnlyRegs s t [x]

/-- 45_keys_timers.md sections FX15 and FX18: SET_DT and SET_ST write their timer alone; tick_ctr stands. -/
def Obligations.SetTimersWriteTimers : Prop :=
  ∀ (x : Nibble) (s : State),
    decode (0xF#4 ++ x ++ 0x15#8) = .setDt x ∧ decode (0xF#4 ++ x ++ 0x18#8) = .setSt x ∧
    (∃ t, exec (.setDt x) s = .next t ∧ t.dt = s.reg x ∧ t.tickCtr = s.tickCtr ∧ t.pc = s.pc + 2 ∧
      t = { s with dt := t.dt, pc := t.pc } ∧ SameMemory s t) ∧
    ∃ t, exec (.setSt x) s = .next t ∧ t.st = s.reg x ∧ t.tickCtr = s.tickCtr ∧ t.pc = s.pc + 2 ∧
      t = { s with st := t.st, pc := t.pc } ∧ SameMemory s t

/-- 45_keys_timers.md section FX0A (D12, D31; logs 12 and 20): WAIT_KEY writes the least pressed key to V[X] and goes on;
with no key pressed PC stays, no register changes and `waiting` is 1. -/
def Obligations.WaitKeyTakesLowestKey : Prop :=
  ∀ (x : Nibble) (s : State), decode (0xF#4 ++ x ++ 0x0A#8) = .waitKey x ∧
    (∀ k, k < 16 → s.keys.getLsbD k = true → (∀ j, j < k → s.keys.getLsbD j = false) →
      ∃ t, exec (.waitKey x) s = .next t ∧ (t.reg x).toNat = k ∧ t.pc = s.pc + 2 ∧ OnlyRegs s t [x]) ∧
    ((∀ k, k < 16 → s.keys.getLsbD k = false) →
      ∃ t, exec (.waitKey x) s = .next t ∧ t.waiting = true ∧ t.pc = s.pc ∧
        t = { s with waiting := t.waiting } ∧ SameMemory s t)

/-- 46_unknown.md (D14, log 22, for which words are Unknown; D23, log 12): an Unknown word is reported with its address, PC advances, nothing else changes, and
the machine does not halt. -/
def Obligations.UnknownReportsAndContinues : Prop :=
  ∀ (w : Word) (s : State), (∀ r ∈ opcodeRows, w &&& r.mask ≠ r.value) →
    decode w = .unknown w ∧
    ∃ t, exec (.unknown w) s = .next t ∧ t.unknownReport = some { word := w, pc := s.pc } ∧
      t.pc = s.pc + 2 ∧ t.halted = s.halted ∧
      t = { s with unknownReport := t.unknownReport, pc := t.pc } ∧ SameMemory s t

/-! ## Outputs -/

/-- 10_state.md section 10 (D25; log 27): `fb_out` carries the whole framebuffer, pixel (x, y) at bit y * 64 + x. -/
def Obligations.FbOutCarriesFramebuffer : Prop :=
  ∀ (s : State) (x y : Nat), x ≤ 63 → y ≤ 31 → s.fbOut.getLsbD (y * 64 + x) = pixel s.fb x y
end

