-- ==== Sys2Proof/Laws/Encoding.lean ====
section
/-! SUPPORT. The bits and fields of an encoded word (30_encoding.md R91, R92), and what each row's mask selects (R96). -/

namespace Sys2Proof

section bits
variable (op x y n : Nibble) (nn : Byte) (nnn : Addr12) (i : Nat)

theorem getLsbD_encodeAddr :
    (encodeAddr op nnn).getLsbD i = if i < 12 then nnn.getLsbD i else op.getLsbD (i - 12) :=
  BitVec.getLsbD_append

theorem getLsbD_encodeRegByte :
    (encodeRegByte op x nn).getLsbD i =
      if i < 8 then nn.getLsbD i else if i - 8 < 4 then x.getLsbD (i - 8) else op.getLsbD (i - 8 - 4) :=
  BitVec.getLsbD_append.trans (by rw [BitVec.getLsbD_append])

theorem getLsbD_encodeRegReg :
    (encodeRegReg op x y n).getLsbD i =
      if i < 4 then n.getLsbD i else if i - 4 < 4 then y.getLsbD (i - 4)
      else if i - 4 - 4 < 4 then x.getLsbD (i - 4 - 4) else op.getLsbD (i - 4 - 4 - 4) :=
  BitVec.getLsbD_append.trans (by rw [BitVec.getLsbD_append, BitVec.getLsbD_append])

theorem getLsbD_wordOfBytes (hi lo : Byte) :
    (wordOfBytes hi lo).getLsbD i = if i < 8 then lo.getLsbD i else hi.getLsbD (i - 8) :=
  BitVec.getLsbD_append

end bits

section fields
variable (op x y n : Nibble) (nn : Byte) (nnn : Addr12)

@[simp] theorem fieldOp_encodeAddr : fieldOp (encodeAddr op nnn) = op := by
  apply BitVec.eq_of_getLsbD_eq; intro i hi
  simp [fieldOp, getLsbD_encodeAddr, hi]
@[simp] theorem fieldNNN_encodeAddr : fieldNNN (encodeAddr op nnn) = nnn := by
  apply BitVec.eq_of_getLsbD_eq; intro i hi
  simp [fieldNNN, getLsbD_encodeAddr, hi]
@[simp] theorem fieldOp_encodeRegByte : fieldOp (encodeRegByte op x nn) = op := by
  apply BitVec.eq_of_getLsbD_eq; intro i hi
  simp [fieldOp, getLsbD_encodeRegByte, hi, show ¬ 12 + i < 8 by omega, show ¬ 12 + i - 8 < 4 by omega, show 12 + i - 8 - 4 = i by omega]
@[simp] theorem fieldX_encodeRegByte : fieldX (encodeRegByte op x nn) = x := by
  apply BitVec.eq_of_getLsbD_eq; intro i hi
  simp [fieldX, getLsbD_encodeRegByte, hi]
@[simp] theorem fieldNN_encodeRegByte : fieldNN (encodeRegByte op x nn) = nn := by
  apply BitVec.eq_of_getLsbD_eq; intro i hi
  simp [fieldNN, getLsbD_encodeRegByte, hi]
@[simp] theorem fieldOp_encodeRegReg : fieldOp (encodeRegReg op x y n) = op := by
  apply BitVec.eq_of_getLsbD_eq; intro i hi
  simp [fieldOp, getLsbD_encodeRegReg, hi, show ¬ 12 + i < 4 by omega, show ¬ 12 + i - 4 < 4 by omega, show ¬ 12 + i - 4 - 4 < 4 by omega, show 12 + i - 4 - 4 - 4 = i by omega]
@[simp] theorem fieldX_encodeRegReg : fieldX (encodeRegReg op x y n) = x := by
  apply BitVec.eq_of_getLsbD_eq; intro i hi
  simp [fieldX, getLsbD_encodeRegReg, hi, show ¬ 8 + i < 4 by omega, show ¬ 8 + i - 4 < 4 by omega, show 8 + i - 4 - 4 = i by omega]
@[simp] theorem fieldY_encodeRegReg : fieldY (encodeRegReg op x y n) = y := by
  apply BitVec.eq_of_getLsbD_eq; intro i hi
  simp [fieldY, getLsbD_encodeRegReg, hi]
@[simp] theorem fieldN_encodeRegReg : fieldN (encodeRegReg op x y n) = n := by
  apply BitVec.eq_of_getLsbD_eq; intro i hi
  simp [fieldN, getLsbD_encodeRegReg, hi]

end fields

section words
variable (w : Word)

/-- A word is its major opcode before its address. -/
theorem encodeAddr_fields : encodeAddr (fieldOp w) (fieldNNN w) = w := by
  apply BitVec.eq_of_getLsbD_eq; intro i hi
  by_cases h : i < 12
  · simp [getLsbD_encodeAddr, fieldNNN, h]
  · simp [getLsbD_encodeAddr, fieldOp, h, show i - 12 < 4 by omega, show 12 + (i - 12) = i by omega]

/-- A word is its major opcode, X and NN. -/
theorem encodeRegByte_fields : encodeRegByte (fieldOp w) (fieldX w) (fieldNN w) = w := by
  apply BitVec.eq_of_getLsbD_eq; intro i hi
  by_cases h8 : i < 8
  · simp [getLsbD_encodeRegByte, fieldNN, h8]
  · by_cases h12 : i - 8 < 4
    · simp [getLsbD_encodeRegByte, fieldX, h8, h12, show 8 + (i - 8) = i by omega]
    · simp [getLsbD_encodeRegByte, fieldOp, h8, h12, show i - 8 - 4 < 4 by omega,
        show 12 + (i - 8 - 4) = i by omega]

/-- A word is its four digits. -/
theorem encodeRegReg_fields : encodeRegReg (fieldOp w) (fieldX w) (fieldY w) (fieldN w) = w := by
  apply BitVec.eq_of_getLsbD_eq; intro i hi
  by_cases h4 : i < 4
  · simp [getLsbD_encodeRegReg, fieldN, h4]
  · by_cases h8 : i - 4 < 4
    · simp [getLsbD_encodeRegReg, fieldY, h4, h8, show 4 + (i - 4) = i by omega]
    · by_cases h12 : i - 4 - 4 < 4
      · simp [getLsbD_encodeRegReg, fieldX, h4, h8, h12, show 8 + (i - 4 - 4) = i by omega]
      · simp [getLsbD_encodeRegReg, fieldOp, h4, h8, h12, show i - 4 - 4 - 4 < 4 by omega,
          show 12 + (i - 4 - 4 - 4) = i by omega]

/-- The two bytes memory holds for a word assemble to it (20_memory.md R65). -/
@[simp] theorem wordOfBytes_highByte_lowByte : wordOfBytes (highByte w) (lowByte w) = w := by
  apply BitVec.eq_of_getLsbD_eq; intro i hi
  by_cases h : i < 8
  · simp [getLsbD_wordOfBytes, lowByte, h]
  · simp [getLsbD_wordOfBytes, highByte, h, show i - 8 < 8 by omega, show 8 + (i - 8) = i by omega]

theorem and_encodeAddr (a a' : Nibble) (b b' : Addr12) :
    encodeAddr a b &&& encodeAddr a' b' = encodeAddr (a &&& a') (b &&& b') := by
  apply BitVec.eq_of_getLsbD_eq; intro i hi
  simp only [BitVec.getLsbD_and, getLsbD_encodeAddr]
  split <;> rfl

theorem and_encodeRegByte (a a' b b' : Nibble) (c c' : Byte) :
    encodeRegByte a b c &&& encodeRegByte a' b' c' =
      encodeRegByte (a &&& a') (b &&& b') (c &&& c') := by
  apply BitVec.eq_of_getLsbD_eq; intro i hi
  simp only [BitVec.getLsbD_and, getLsbD_encodeRegByte]
  split
  · rfl
  · split <;> rfl

theorem and_encodeRegReg (a a' b b' c c' d d' : Nibble) :
    encodeRegReg a b c d &&& encodeRegReg a' b' c' d' =
      encodeRegReg (a &&& a') (b &&& b') (c &&& c') (d &&& d') := by
  apply BitVec.eq_of_getLsbD_eq; intro i hi
  simp only [BitVec.getLsbD_and, getLsbD_encodeRegReg]
  split
  · rfl
  · split
    · rfl
    · split <;> rfl

theorem nibble_and_F (a : Nibble) : a &&& 0xF#4 = a := BitVec.and_allOnes
theorem byte_and_FF (a : Byte) : a &&& 0xFF#8 = a := BitVec.and_allOnes

/-- A row with mask 0xF000 selects by the major opcode. -/
theorem mask_F000 (v : Nibble) : w &&& 0xF000#16 = encodeAddr v 0 ↔ fieldOp w = v := by
  have hw : w &&& 0xF000#16 = encodeAddr (fieldOp w) 0 := by
    have hm : 0xF000#16 = encodeAddr 0xF#4 0#12 := rfl
    conv_lhs => rw [← encodeAddr_fields w, hm, and_encodeAddr, nibble_and_F]
    simp
  rw [hw]
  exact ⟨fun h => by simpa using congrArg fieldOp h, fun h => by rw [h]⟩

/-- A row with mask 0xF00F selects by the major opcode and N. -/
theorem mask_F00F (v n : Nibble) :
    w &&& 0xF00F#16 = encodeRegReg v 0 0 n ↔ fieldOp w = v ∧ fieldN w = n := by
  have hw : w &&& 0xF00F#16 = encodeRegReg (fieldOp w) 0 0 (fieldN w) := by
    have hm : 0xF00F#16 = encodeRegReg 0xF#4 0#4 0#4 0xF#4 := rfl
    conv_lhs => rw [← encodeRegReg_fields w, hm, and_encodeRegReg, nibble_and_F, nibble_and_F]
    simp
  rw [hw]
  exact ⟨fun h => ⟨by simpa using congrArg fieldOp h, by simpa using congrArg fieldN h⟩,
    fun h => by rw [h.1, h.2]⟩

/-- A row with mask 0xF0FF selects by the major opcode and NN. -/
theorem mask_F0FF (v : Nibble) (nn : Byte) :
    w &&& 0xF0FF#16 = encodeRegByte v 0 nn ↔ fieldOp w = v ∧ fieldNN w = nn := by
  have hw : w &&& 0xF0FF#16 = encodeRegByte (fieldOp w) 0 (fieldNN w) := by
    have hm : 0xF0FF#16 = encodeRegByte 0xF#4 0#4 0xFF#8 := rfl
    conv_lhs => rw [← encodeRegByte_fields w, hm, and_encodeRegByte, nibble_and_F, byte_and_FF]
    simp
  rw [hw]
  exact ⟨fun h => ⟨by simpa using congrArg fieldOp h, by simpa using congrArg fieldNN h⟩,
    fun h => by rw [h.1, h.2]⟩

end words

end Sys2Proof
end

