-- ==== Sys2Proof/Laws/Memory.lean ====
section
/-! SUPPORT. What the memory operations do: a read after a write, and the canonical form every operation keeps. -/

namespace Sys2Proof.Machine

/-- The bounds rule in numbers (20_memory.md R63). -/
theorem inRange_iff (base n : Nat) : inRange base n = true ↔ base + n ≤ 0x1000 := by
  simp [inRange]

/-- An access that is out of range (20_memory.md R63). -/
theorem inRange_false (base n : Nat) : inRange base n = false ↔ 0x1000 < base + n := by
  simp [inRange]

/-- The FONT region alone reads as something other than 0 when nothing is listed (20_memory.md R67). -/
theorem unlisted_of_le (a : Nat) (h : Config.fontBytes ≤ a) : unlisted a = 0 := by
  simp [unlisted, Nat.not_lt.mpr h]

namespace Memory

/-- A write leaves every other address alone. -/
theorem read_write_other (m : Memory) (a b : Nat) (v : Byte) (h : b ≠ a) :
    (m.write a v).read b = m.read b := by
  induction m with
  | nil => unfold write; split <;> simp [read, Ne.symm h]
  | cons c rest ih =>
    obtain ⟨k, c⟩ := c
    simp only [write]
    split
    · split
      · rfl
      · simp [read, Ne.symm h]
    · split
      · next hk =>
        subst hk
        split <;> simp [read, Ne.symm h]
      · simp only [read]
        split
        · rfl
        · exact ih

/-- An address below every listed one reads as unlisted. -/
theorem read_below (m : Memory) (lo a : Nat) (hm : m.wfFrom lo = true) (h : a < lo) :
    m.read a = unlisted a := by
  induction m generalizing lo with
  | nil => rfl
  | cons c rest ih =>
    obtain ⟨k, c⟩ := c
    simp [wfFrom] at hm
    have hk : k ≠ a := by omega
    simp [read, hk, ih (k + 1) hm.2 (by omega)]

/-- A read of the written address gives the written byte. -/
theorem read_write_same_from (m : Memory) (lo a : Nat) (v : Byte) (hm : m.wfFrom lo = true) :
    (m.write a v).read a = v := by
  induction m generalizing lo with
  | nil => unfold write; split <;> simp_all [read]
  | cons c rest ih =>
    obtain ⟨k, c⟩ := c
    have hm' := hm
    simp [wfFrom] at hm'
    simp only [write]
    split
    · next hlt =>
      split
      · next hv =>
        have hk : k ≠ a := by omega
        simp [read, hk, read_below rest (k + 1) a hm'.2 (by omega), hv]
      · simp [read]
    · split
      · next hk =>
        subst hk
        split
        · next hv => simp [read_below rest (a + 1) a hm'.2 (by omega), hv]
        · simp [read]
      · next hk =>
        have : k ≠ a := fun e => hk e.symm
        simp [read, this, ih (k + 1) hm'.2]

theorem read_write_same (m : Memory) (a : Nat) (v : Byte) (hm : m.wf = true) :
    (m.write a v).read a = v := read_write_same_from m 0 a v hm

/-- The canonical form from `hi` on is one from every lower bound on. -/
theorem wfFrom_mono (m : Memory) (lo hi : Nat) (h : lo ≤ hi) (hm : m.wfFrom hi = true) :
    m.wfFrom lo = true := by
  cases m with
  | nil => rfl
  | cons c rest =>
    obtain ⟨k, c⟩ := c
    simp [wfFrom] at hm ⊢
    exact ⟨⟨⟨by omega, hm.1.1.2⟩, hm.1.2⟩, hm.2⟩

/-- An in-range write keeps the canonical form. -/
theorem wfFrom_write (m : Memory) (lo a : Nat) (v : Byte) (hm : m.wfFrom lo = true) (hlo : lo ≤ a)
    (ha : a < 0x1000) : (m.write a v).wfFrom lo = true := by
  induction m generalizing lo with
  | nil => unfold write; split <;> simp_all [wfFrom]
  | cons c rest ih =>
    obtain ⟨k, c⟩ := c
    have hm' := hm
    simp [wfFrom] at hm'
    simp only [write]
    split
    · next hlt =>
      split
      · exact hm
      · next hv => simp [wfFrom, hlo, ha, hv, hm'.1.1.2, hm'.1.2, hm'.2]; omega
    · split
      · next hk =>
        subst hk
        split
        · exact wfFrom_mono rest lo (a + 1) (by omega) hm'.2
        · next hv => simp [wfFrom, hlo, ha, hv, hm'.2]
      · next hlt hk =>
        have := ih (k + 1) hm'.2 (by omega)
        simp [wfFrom, hm'.1.1.1, hm'.1.1.2, hm'.1.2, this]

theorem wf_write (m : Memory) (a : Nat) (v : Byte) (hm : m.wf = true) (ha : a < 0x1000) :
    (m.write a v).wf = true := wfFrom_write m 0 a v hm (Nat.zero_le a) ha

/-- Everything a run of in-range stores does. -/
theorem writeBytes_spec (bs : List Byte) (m : Memory) (a : Nat) (hm : m.wf = true)
    (ha : a + bs.length ≤ 0x1000) :
    (m.writeBytes a bs).wf = true ∧
    (∀ (k : Nat) (h : k < bs.length), (m.writeBytes a bs).read (a + k) = bs[k]) ∧
    ∀ b, b < a ∨ a + bs.length ≤ b → (m.writeBytes a bs).read b = m.read b := by
  induction bs generalizing m a with
  | nil => simp [writeBytes, hm]
  | cons v bs ih =>
    simp only [List.length_cons] at ha
    obtain ⟨hwf, hin, hout⟩ := ih (m.write a v) (a + 1) (wf_write m a v hm (by omega)) (by omega)
    refine ⟨hwf, ?_, ?_⟩
    · intro k hk
      cases k with
      | zero => simp [writeBytes, hout a (by omega), read_write_same m a v hm]
      | succ k =>
        have := hin k (by simpa using hk)
        simpa [writeBytes, Nat.add_assoc, Nat.add_comm 1 k] using this
    · intro b hb
      simp only [List.length_cons] at hb
      rw [writeBytes, hout b (by omega), read_write_other m a b v (by omega)]

/-- A run of stores leaves every address outside it alone, in range or not. -/
theorem read_writeBytes_other (bs : List Byte) (m : Memory) (a b : Nat)
    (h : b < a ∨ a + bs.length ≤ b) : (m.writeBytes a bs).read b = m.read b := by
  induction bs generalizing m a with
  | nil => rfl
  | cons v bs ih =>
    simp only [List.length_cons] at h
    rw [writeBytes, ih (m.write a v) (a + 1) (by omega), read_write_other m a b v (by omega)]

/-- Memory with nothing listed is in canonical form. -/
theorem wf_nil : Memory.wf [] = true := rfl

end Memory

/-- Everything a register dump does (44_index_memory.md R174). -/
theorem storeRegs_spec (v : Vector Byte 16) (base : Nat) (m : Memory) (n : Nat) (hm : m.wf = true)
    (h : base + n ≤ 0x1000) :
    (storeRegs v base m n).wf = true ∧
    (∀ k, k < n → (storeRegs v base m n).read (base + k) = regAt v k) ∧
    ∀ b, b < base ∨ base + n ≤ b → (storeRegs v base m n).read b = m.read b := by
  induction n with
  | zero => simp [storeRegs, hm]
  | succ n ih =>
    obtain ⟨hwf, hin, hout⟩ := ih (by omega)
    refine ⟨Memory.wf_write _ _ _ hwf (by omega), ?_, ?_⟩
    · intro k hk
      by_cases e : k = n
      · subst e
        exact Memory.read_write_same _ _ _ hwf
      · rw [storeRegs, Memory.read_write_other _ _ _ _ (by omega), hin k (by omega)]
    · intro b hb
      rw [storeRegs, Memory.read_write_other _ _ _ _ (by omega), hout b (by omega)]

/-- Everything a register load does (44_index_memory.md R175). -/
theorem loadRegs_getElem (m : Memory) (base : Nat) (v : Vector Byte 16) (n k : Nat) (hk : k < 16) :
    (loadRegs m base v n)[k] = if k < n then m.read (base + k) else v[k] := by
  induction n with
  | zero => simp [loadRegs]
  | succ n ih =>
    by_cases e : n = k
    · subst e
      simp [loadRegs]
    · rw [loadRegs, Vector.getElem_setIfInBounds_ne hk e, ih]
      by_cases h : k < n
      · simp [h, Nat.lt_succ_of_lt h]
      · simp [h, show ¬ k < n + 1 by omega]

/-- The three digits are bytes 0 to 9, hundreds first (44_index_memory.md R173). -/
theorem bcdDigits_length (b : Byte) : (bcdDigits b).length = 3 := rfl

/-- The zeroed array is in canonical form and reads as 0 (70_reset_and_hazards.md R240). -/
theorem zeroMemory_spec : zeroMemory.wf = true ∧ ∀ a, zeroMemory.read a = 0 := by
  obtain ⟨hwf, hin, hout⟩ :=
    Memory.writeBytes_spec (List.replicate Config.fontBytes 0) [] 0 Memory.wf_nil (by simp [Config.fontBytes])
  refine ⟨hwf, fun a => ?_⟩
  by_cases h : a < Config.fontBytes
  · have := hin a (by simpa using h)
    simpa [zeroMemory] using this
  · have := hout a (Or.inr (by simpa using h))
    rw [zeroMemory, this]
    exact unlisted_of_le a (by omega)

/-- A load of an image that fits keeps the canonical form (70_reset_and_hazards.md R243). -/
theorem wf_loadedMemory (font : Vector Byte Config.fontBytes) (image : List Byte)
    (h : imageFits image = true) : (loadedMemory font image).wf = true := by
  simp [imageFits] at h
  have hl : 0x200 + image.length ≤ 0x1000 := by
    have : image.length ≤ 3584 := h
    omega
  have hf := (Memory.writeBytes_spec font.toList [] 0 Memory.wf_nil (by simp [Config.fontBytes])).1
  exact (Memory.writeBytes_spec image _ Config.progBase hf hl).1

end Sys2Proof.Machine
end

