-- ==== Sys2Proof/Laws/State.lean ====
section
/-! SUPPORT. For each update of State, what each field is after it (each true by definition), so that no proof unfolds
a record update; and the compound updates as the simple ones. -/

namespace Sys2Proof.Machine.State

/-! ### setReg -/

section
variable (s : State) (x : Nibble) (b : Byte)
@[simp] theorem setReg_v : (s.setReg x b).v = s.v.set x.toNat b x.isLt := rfl
@[simp] theorem setReg_index : (s.setReg x b).index = s.index := rfl
@[simp] theorem setReg_pc : (s.setReg x b).pc = s.pc := rfl
@[simp] theorem setReg_sp : (s.setReg x b).sp = s.sp := rfl
@[simp] theorem setReg_stack : (s.setReg x b).stack = s.stack := rfl
@[simp] theorem setReg_dt : (s.setReg x b).dt = s.dt := rfl
@[simp] theorem setReg_st : (s.setReg x b).st = s.st := rfl
@[simp] theorem setReg_fb : (s.setReg x b).fb = s.fb := rfl
@[simp] theorem setReg_keys : (s.setReg x b).keys = s.keys := rfl
@[simp] theorem setReg_mem : (s.setReg x b).mem = s.mem := rfl
@[simp] theorem setReg_tickCtr : (s.setReg x b).tickCtr = s.tickCtr := rfl
@[simp] theorem setReg_halted : (s.setReg x b).halted = s.halted := rfl
@[simp] theorem setReg_err : (s.setReg x b).err = s.err := rfl
@[simp] theorem setReg_errPc : (s.setReg x b).errPc = s.errPc := rfl
@[simp] theorem setReg_errAddr : (s.setReg x b).errAddr = s.errAddr := rfl
@[simp] theorem setReg_randPos : (s.setReg x b).randPos = s.randPos := rfl
@[simp] theorem setReg_keysIn : (s.setReg x b).keysIn = s.keysIn := rfl
@[simp] theorem setReg_quitIn : (s.setReg x b).quitIn = s.quitIn := rfl
@[simp] theorem setReg_tickIn : (s.setReg x b).tickIn = s.tickIn := rfl
@[simp] theorem setReg_randIn : (s.setReg x b).randIn = s.randIn := rfl
@[simp] theorem setReg_unknownReport : (s.setReg x b).unknownReport = s.unknownReport := rfl
@[simp] theorem setReg_waiting : (s.setReg x b).waiting = s.waiting := rfl
@[simp] theorem setReg_tone : (s.setReg x b).tone = s.tone := rfl
@[simp] theorem setReg_params : (s.setReg x b).params = s.params := rfl
@[simp] theorem setReg_drives : (s.setReg x b).drives = s.drives := rfl
@[simp] theorem setReg_runNo : (s.setReg x b).runNo = s.runNo := rfl
end

/-! ### setPc -/

section
variable (s : State) (a : Word)
@[simp] theorem setPc_v : (s.setPc a).v = s.v := rfl
@[simp] theorem setPc_index : (s.setPc a).index = s.index := rfl
@[simp] theorem setPc_pc : (s.setPc a).pc = a := rfl
@[simp] theorem setPc_sp : (s.setPc a).sp = s.sp := rfl
@[simp] theorem setPc_stack : (s.setPc a).stack = s.stack := rfl
@[simp] theorem setPc_dt : (s.setPc a).dt = s.dt := rfl
@[simp] theorem setPc_st : (s.setPc a).st = s.st := rfl
@[simp] theorem setPc_fb : (s.setPc a).fb = s.fb := rfl
@[simp] theorem setPc_keys : (s.setPc a).keys = s.keys := rfl
@[simp] theorem setPc_mem : (s.setPc a).mem = s.mem := rfl
@[simp] theorem setPc_tickCtr : (s.setPc a).tickCtr = s.tickCtr := rfl
@[simp] theorem setPc_halted : (s.setPc a).halted = s.halted := rfl
@[simp] theorem setPc_err : (s.setPc a).err = s.err := rfl
@[simp] theorem setPc_errPc : (s.setPc a).errPc = s.errPc := rfl
@[simp] theorem setPc_errAddr : (s.setPc a).errAddr = s.errAddr := rfl
@[simp] theorem setPc_randPos : (s.setPc a).randPos = s.randPos := rfl
@[simp] theorem setPc_keysIn : (s.setPc a).keysIn = s.keysIn := rfl
@[simp] theorem setPc_quitIn : (s.setPc a).quitIn = s.quitIn := rfl
@[simp] theorem setPc_tickIn : (s.setPc a).tickIn = s.tickIn := rfl
@[simp] theorem setPc_randIn : (s.setPc a).randIn = s.randIn := rfl
@[simp] theorem setPc_unknownReport : (s.setPc a).unknownReport = s.unknownReport := rfl
@[simp] theorem setPc_waiting : (s.setPc a).waiting = s.waiting := rfl
@[simp] theorem setPc_tone : (s.setPc a).tone = s.tone := rfl
@[simp] theorem setPc_params : (s.setPc a).params = s.params := rfl
@[simp] theorem setPc_drives : (s.setPc a).drives = s.drives := rfl
@[simp] theorem setPc_runNo : (s.setPc a).runNo = s.runNo := rfl
end

/-! ### setIndex -/

section
variable (s : State) (a : Word)
@[simp] theorem setIndex_v : (s.setIndex a).v = s.v := rfl
@[simp] theorem setIndex_index : (s.setIndex a).index = a := rfl
@[simp] theorem setIndex_pc : (s.setIndex a).pc = s.pc := rfl
@[simp] theorem setIndex_sp : (s.setIndex a).sp = s.sp := rfl
@[simp] theorem setIndex_stack : (s.setIndex a).stack = s.stack := rfl
@[simp] theorem setIndex_dt : (s.setIndex a).dt = s.dt := rfl
@[simp] theorem setIndex_st : (s.setIndex a).st = s.st := rfl
@[simp] theorem setIndex_fb : (s.setIndex a).fb = s.fb := rfl
@[simp] theorem setIndex_keys : (s.setIndex a).keys = s.keys := rfl
@[simp] theorem setIndex_mem : (s.setIndex a).mem = s.mem := rfl
@[simp] theorem setIndex_tickCtr : (s.setIndex a).tickCtr = s.tickCtr := rfl
@[simp] theorem setIndex_halted : (s.setIndex a).halted = s.halted := rfl
@[simp] theorem setIndex_err : (s.setIndex a).err = s.err := rfl
@[simp] theorem setIndex_errPc : (s.setIndex a).errPc = s.errPc := rfl
@[simp] theorem setIndex_errAddr : (s.setIndex a).errAddr = s.errAddr := rfl
@[simp] theorem setIndex_randPos : (s.setIndex a).randPos = s.randPos := rfl
@[simp] theorem setIndex_keysIn : (s.setIndex a).keysIn = s.keysIn := rfl
@[simp] theorem setIndex_quitIn : (s.setIndex a).quitIn = s.quitIn := rfl
@[simp] theorem setIndex_tickIn : (s.setIndex a).tickIn = s.tickIn := rfl
@[simp] theorem setIndex_randIn : (s.setIndex a).randIn = s.randIn := rfl
@[simp] theorem setIndex_unknownReport : (s.setIndex a).unknownReport = s.unknownReport := rfl
@[simp] theorem setIndex_waiting : (s.setIndex a).waiting = s.waiting := rfl
@[simp] theorem setIndex_tone : (s.setIndex a).tone = s.tone := rfl
@[simp] theorem setIndex_params : (s.setIndex a).params = s.params := rfl
@[simp] theorem setIndex_drives : (s.setIndex a).drives = s.drives := rfl
@[simp] theorem setIndex_runNo : (s.setIndex a).runNo = s.runNo := rfl
end

/-! ### setFb -/

section
variable (s : State) (f : Framebuffer)
@[simp] theorem setFb_v : (s.setFb f).v = s.v := rfl
@[simp] theorem setFb_index : (s.setFb f).index = s.index := rfl
@[simp] theorem setFb_pc : (s.setFb f).pc = s.pc := rfl
@[simp] theorem setFb_sp : (s.setFb f).sp = s.sp := rfl
@[simp] theorem setFb_stack : (s.setFb f).stack = s.stack := rfl
@[simp] theorem setFb_dt : (s.setFb f).dt = s.dt := rfl
@[simp] theorem setFb_st : (s.setFb f).st = s.st := rfl
@[simp] theorem setFb_fb : (s.setFb f).fb = f := rfl
@[simp] theorem setFb_keys : (s.setFb f).keys = s.keys := rfl
@[simp] theorem setFb_mem : (s.setFb f).mem = s.mem := rfl
@[simp] theorem setFb_tickCtr : (s.setFb f).tickCtr = s.tickCtr := rfl
@[simp] theorem setFb_halted : (s.setFb f).halted = s.halted := rfl
@[simp] theorem setFb_err : (s.setFb f).err = s.err := rfl
@[simp] theorem setFb_errPc : (s.setFb f).errPc = s.errPc := rfl
@[simp] theorem setFb_errAddr : (s.setFb f).errAddr = s.errAddr := rfl
@[simp] theorem setFb_randPos : (s.setFb f).randPos = s.randPos := rfl
@[simp] theorem setFb_keysIn : (s.setFb f).keysIn = s.keysIn := rfl
@[simp] theorem setFb_quitIn : (s.setFb f).quitIn = s.quitIn := rfl
@[simp] theorem setFb_tickIn : (s.setFb f).tickIn = s.tickIn := rfl
@[simp] theorem setFb_randIn : (s.setFb f).randIn = s.randIn := rfl
@[simp] theorem setFb_unknownReport : (s.setFb f).unknownReport = s.unknownReport := rfl
@[simp] theorem setFb_waiting : (s.setFb f).waiting = s.waiting := rfl
@[simp] theorem setFb_tone : (s.setFb f).tone = s.tone := rfl
@[simp] theorem setFb_params : (s.setFb f).params = s.params := rfl
@[simp] theorem setFb_drives : (s.setFb f).drives = s.drives := rfl
@[simp] theorem setFb_runNo : (s.setFb f).runNo = s.runNo := rfl
end

/-! ### setMem -/

section
variable (s : State) (m : Memory)
@[simp] theorem setMem_v : (s.setMem m).v = s.v := rfl
@[simp] theorem setMem_index : (s.setMem m).index = s.index := rfl
@[simp] theorem setMem_pc : (s.setMem m).pc = s.pc := rfl
@[simp] theorem setMem_sp : (s.setMem m).sp = s.sp := rfl
@[simp] theorem setMem_stack : (s.setMem m).stack = s.stack := rfl
@[simp] theorem setMem_dt : (s.setMem m).dt = s.dt := rfl
@[simp] theorem setMem_st : (s.setMem m).st = s.st := rfl
@[simp] theorem setMem_fb : (s.setMem m).fb = s.fb := rfl
@[simp] theorem setMem_keys : (s.setMem m).keys = s.keys := rfl
@[simp] theorem setMem_mem : (s.setMem m).mem = m := rfl
@[simp] theorem setMem_tickCtr : (s.setMem m).tickCtr = s.tickCtr := rfl
@[simp] theorem setMem_halted : (s.setMem m).halted = s.halted := rfl
@[simp] theorem setMem_err : (s.setMem m).err = s.err := rfl
@[simp] theorem setMem_errPc : (s.setMem m).errPc = s.errPc := rfl
@[simp] theorem setMem_errAddr : (s.setMem m).errAddr = s.errAddr := rfl
@[simp] theorem setMem_randPos : (s.setMem m).randPos = s.randPos := rfl
@[simp] theorem setMem_keysIn : (s.setMem m).keysIn = s.keysIn := rfl
@[simp] theorem setMem_quitIn : (s.setMem m).quitIn = s.quitIn := rfl
@[simp] theorem setMem_tickIn : (s.setMem m).tickIn = s.tickIn := rfl
@[simp] theorem setMem_randIn : (s.setMem m).randIn = s.randIn := rfl
@[simp] theorem setMem_unknownReport : (s.setMem m).unknownReport = s.unknownReport := rfl
@[simp] theorem setMem_waiting : (s.setMem m).waiting = s.waiting := rfl
@[simp] theorem setMem_tone : (s.setMem m).tone = s.tone := rfl
@[simp] theorem setMem_params : (s.setMem m).params = s.params := rfl
@[simp] theorem setMem_drives : (s.setMem m).drives = s.drives := rfl
@[simp] theorem setMem_runNo : (s.setMem m).runNo = s.runNo := rfl
end

/-! ### setRegs -/

section
variable (s : State) (r : Vector Byte 16)
@[simp] theorem setRegs_v : (s.setRegs r).v = r := rfl
@[simp] theorem setRegs_index : (s.setRegs r).index = s.index := rfl
@[simp] theorem setRegs_pc : (s.setRegs r).pc = s.pc := rfl
@[simp] theorem setRegs_sp : (s.setRegs r).sp = s.sp := rfl
@[simp] theorem setRegs_stack : (s.setRegs r).stack = s.stack := rfl
@[simp] theorem setRegs_dt : (s.setRegs r).dt = s.dt := rfl
@[simp] theorem setRegs_st : (s.setRegs r).st = s.st := rfl
@[simp] theorem setRegs_fb : (s.setRegs r).fb = s.fb := rfl
@[simp] theorem setRegs_keys : (s.setRegs r).keys = s.keys := rfl
@[simp] theorem setRegs_mem : (s.setRegs r).mem = s.mem := rfl
@[simp] theorem setRegs_tickCtr : (s.setRegs r).tickCtr = s.tickCtr := rfl
@[simp] theorem setRegs_halted : (s.setRegs r).halted = s.halted := rfl
@[simp] theorem setRegs_err : (s.setRegs r).err = s.err := rfl
@[simp] theorem setRegs_errPc : (s.setRegs r).errPc = s.errPc := rfl
@[simp] theorem setRegs_errAddr : (s.setRegs r).errAddr = s.errAddr := rfl
@[simp] theorem setRegs_randPos : (s.setRegs r).randPos = s.randPos := rfl
@[simp] theorem setRegs_keysIn : (s.setRegs r).keysIn = s.keysIn := rfl
@[simp] theorem setRegs_quitIn : (s.setRegs r).quitIn = s.quitIn := rfl
@[simp] theorem setRegs_tickIn : (s.setRegs r).tickIn = s.tickIn := rfl
@[simp] theorem setRegs_randIn : (s.setRegs r).randIn = s.randIn := rfl
@[simp] theorem setRegs_unknownReport : (s.setRegs r).unknownReport = s.unknownReport := rfl
@[simp] theorem setRegs_waiting : (s.setRegs r).waiting = s.waiting := rfl
@[simp] theorem setRegs_tone : (s.setRegs r).tone = s.tone := rfl
@[simp] theorem setRegs_params : (s.setRegs r).params = s.params := rfl
@[simp] theorem setRegs_drives : (s.setRegs r).drives = s.drives := rfl
@[simp] theorem setRegs_runNo : (s.setRegs r).runNo = s.runNo := rfl
end

/-! ### setDelay -/

section
variable (s : State) (b : Byte)
@[simp] theorem setDelay_v : (s.setDelay b).v = s.v := rfl
@[simp] theorem setDelay_index : (s.setDelay b).index = s.index := rfl
@[simp] theorem setDelay_pc : (s.setDelay b).pc = s.pc := rfl
@[simp] theorem setDelay_sp : (s.setDelay b).sp = s.sp := rfl
@[simp] theorem setDelay_stack : (s.setDelay b).stack = s.stack := rfl
@[simp] theorem setDelay_dt : (s.setDelay b).dt = b := rfl
@[simp] theorem setDelay_st : (s.setDelay b).st = s.st := rfl
@[simp] theorem setDelay_fb : (s.setDelay b).fb = s.fb := rfl
@[simp] theorem setDelay_keys : (s.setDelay b).keys = s.keys := rfl
@[simp] theorem setDelay_mem : (s.setDelay b).mem = s.mem := rfl
@[simp] theorem setDelay_tickCtr : (s.setDelay b).tickCtr = s.tickCtr := rfl
@[simp] theorem setDelay_halted : (s.setDelay b).halted = s.halted := rfl
@[simp] theorem setDelay_err : (s.setDelay b).err = s.err := rfl
@[simp] theorem setDelay_errPc : (s.setDelay b).errPc = s.errPc := rfl
@[simp] theorem setDelay_errAddr : (s.setDelay b).errAddr = s.errAddr := rfl
@[simp] theorem setDelay_randPos : (s.setDelay b).randPos = s.randPos := rfl
@[simp] theorem setDelay_keysIn : (s.setDelay b).keysIn = s.keysIn := rfl
@[simp] theorem setDelay_quitIn : (s.setDelay b).quitIn = s.quitIn := rfl
@[simp] theorem setDelay_tickIn : (s.setDelay b).tickIn = s.tickIn := rfl
@[simp] theorem setDelay_randIn : (s.setDelay b).randIn = s.randIn := rfl
@[simp] theorem setDelay_unknownReport : (s.setDelay b).unknownReport = s.unknownReport := rfl
@[simp] theorem setDelay_waiting : (s.setDelay b).waiting = s.waiting := rfl
@[simp] theorem setDelay_tone : (s.setDelay b).tone = s.tone := rfl
@[simp] theorem setDelay_params : (s.setDelay b).params = s.params := rfl
@[simp] theorem setDelay_drives : (s.setDelay b).drives = s.drives := rfl
@[simp] theorem setDelay_runNo : (s.setDelay b).runNo = s.runNo := rfl
end

/-! ### setSound -/

section
variable (s : State) (b : Byte)
@[simp] theorem setSound_v : (s.setSound b).v = s.v := rfl
@[simp] theorem setSound_index : (s.setSound b).index = s.index := rfl
@[simp] theorem setSound_pc : (s.setSound b).pc = s.pc := rfl
@[simp] theorem setSound_sp : (s.setSound b).sp = s.sp := rfl
@[simp] theorem setSound_stack : (s.setSound b).stack = s.stack := rfl
@[simp] theorem setSound_dt : (s.setSound b).dt = s.dt := rfl
@[simp] theorem setSound_st : (s.setSound b).st = b := rfl
@[simp] theorem setSound_fb : (s.setSound b).fb = s.fb := rfl
@[simp] theorem setSound_keys : (s.setSound b).keys = s.keys := rfl
@[simp] theorem setSound_mem : (s.setSound b).mem = s.mem := rfl
@[simp] theorem setSound_tickCtr : (s.setSound b).tickCtr = s.tickCtr := rfl
@[simp] theorem setSound_halted : (s.setSound b).halted = s.halted := rfl
@[simp] theorem setSound_err : (s.setSound b).err = s.err := rfl
@[simp] theorem setSound_errPc : (s.setSound b).errPc = s.errPc := rfl
@[simp] theorem setSound_errAddr : (s.setSound b).errAddr = s.errAddr := rfl
@[simp] theorem setSound_randPos : (s.setSound b).randPos = s.randPos := rfl
@[simp] theorem setSound_keysIn : (s.setSound b).keysIn = s.keysIn := rfl
@[simp] theorem setSound_quitIn : (s.setSound b).quitIn = s.quitIn := rfl
@[simp] theorem setSound_tickIn : (s.setSound b).tickIn = s.tickIn := rfl
@[simp] theorem setSound_randIn : (s.setSound b).randIn = s.randIn := rfl
@[simp] theorem setSound_unknownReport : (s.setSound b).unknownReport = s.unknownReport := rfl
@[simp] theorem setSound_waiting : (s.setSound b).waiting = s.waiting := rfl
@[simp] theorem setSound_tone : (s.setSound b).tone = s.tone := rfl
@[simp] theorem setSound_params : (s.setSound b).params = s.params := rfl
@[simp] theorem setSound_drives : (s.setSound b).drives = s.drives := rfl
@[simp] theorem setSound_runNo : (s.setSound b).runNo = s.runNo := rfl
end

/-! ### setWaiting -/

section
variable (s : State) (b : Bool)
@[simp] theorem setWaiting_v : (s.setWaiting b).v = s.v := rfl
@[simp] theorem setWaiting_index : (s.setWaiting b).index = s.index := rfl
@[simp] theorem setWaiting_pc : (s.setWaiting b).pc = s.pc := rfl
@[simp] theorem setWaiting_sp : (s.setWaiting b).sp = s.sp := rfl
@[simp] theorem setWaiting_stack : (s.setWaiting b).stack = s.stack := rfl
@[simp] theorem setWaiting_dt : (s.setWaiting b).dt = s.dt := rfl
@[simp] theorem setWaiting_st : (s.setWaiting b).st = s.st := rfl
@[simp] theorem setWaiting_fb : (s.setWaiting b).fb = s.fb := rfl
@[simp] theorem setWaiting_keys : (s.setWaiting b).keys = s.keys := rfl
@[simp] theorem setWaiting_mem : (s.setWaiting b).mem = s.mem := rfl
@[simp] theorem setWaiting_tickCtr : (s.setWaiting b).tickCtr = s.tickCtr := rfl
@[simp] theorem setWaiting_halted : (s.setWaiting b).halted = s.halted := rfl
@[simp] theorem setWaiting_err : (s.setWaiting b).err = s.err := rfl
@[simp] theorem setWaiting_errPc : (s.setWaiting b).errPc = s.errPc := rfl
@[simp] theorem setWaiting_errAddr : (s.setWaiting b).errAddr = s.errAddr := rfl
@[simp] theorem setWaiting_randPos : (s.setWaiting b).randPos = s.randPos := rfl
@[simp] theorem setWaiting_keysIn : (s.setWaiting b).keysIn = s.keysIn := rfl
@[simp] theorem setWaiting_quitIn : (s.setWaiting b).quitIn = s.quitIn := rfl
@[simp] theorem setWaiting_tickIn : (s.setWaiting b).tickIn = s.tickIn := rfl
@[simp] theorem setWaiting_randIn : (s.setWaiting b).randIn = s.randIn := rfl
@[simp] theorem setWaiting_unknownReport : (s.setWaiting b).unknownReport = s.unknownReport := rfl
@[simp] theorem setWaiting_waiting : (s.setWaiting b).waiting = b := rfl
@[simp] theorem setWaiting_tone : (s.setWaiting b).tone = s.tone := rfl
@[simp] theorem setWaiting_params : (s.setWaiting b).params = s.params := rfl
@[simp] theorem setWaiting_drives : (s.setWaiting b).drives = s.drives := rfl
@[simp] theorem setWaiting_runNo : (s.setWaiting b).runNo = s.runNo := rfl
end

/-! ### report -/

section
variable (s : State) (w : Word)
@[simp] theorem report_v : (s.report w).v = s.v := rfl
@[simp] theorem report_index : (s.report w).index = s.index := rfl
@[simp] theorem report_pc : (s.report w).pc = s.pc := rfl
@[simp] theorem report_sp : (s.report w).sp = s.sp := rfl
@[simp] theorem report_stack : (s.report w).stack = s.stack := rfl
@[simp] theorem report_dt : (s.report w).dt = s.dt := rfl
@[simp] theorem report_st : (s.report w).st = s.st := rfl
@[simp] theorem report_fb : (s.report w).fb = s.fb := rfl
@[simp] theorem report_keys : (s.report w).keys = s.keys := rfl
@[simp] theorem report_mem : (s.report w).mem = s.mem := rfl
@[simp] theorem report_tickCtr : (s.report w).tickCtr = s.tickCtr := rfl
@[simp] theorem report_halted : (s.report w).halted = s.halted := rfl
@[simp] theorem report_err : (s.report w).err = s.err := rfl
@[simp] theorem report_errPc : (s.report w).errPc = s.errPc := rfl
@[simp] theorem report_errAddr : (s.report w).errAddr = s.errAddr := rfl
@[simp] theorem report_randPos : (s.report w).randPos = s.randPos := rfl
@[simp] theorem report_keysIn : (s.report w).keysIn = s.keysIn := rfl
@[simp] theorem report_quitIn : (s.report w).quitIn = s.quitIn := rfl
@[simp] theorem report_tickIn : (s.report w).tickIn = s.tickIn := rfl
@[simp] theorem report_randIn : (s.report w).randIn = s.randIn := rfl
@[simp] theorem report_unknownReport : (s.report w).unknownReport = some { word := w, pc := s.pc } := rfl
@[simp] theorem report_waiting : (s.report w).waiting = s.waiting := rfl
@[simp] theorem report_tone : (s.report w).tone = s.tone := rfl
@[simp] theorem report_params : (s.report w).params = s.params := rfl
@[simp] theorem report_drives : (s.report w).drives = s.drives := rfl
@[simp] theorem report_runNo : (s.report w).runNo = s.runNo := rfl
end

/-! ### push -/

section
variable (s : State) (a : Word)
@[simp] theorem push_v : (s.push a).v = s.v := rfl
@[simp] theorem push_index : (s.push a).index = s.index := rfl
@[simp] theorem push_pc : (s.push a).pc = s.pc := rfl
@[simp] theorem push_sp : (s.push a).sp = s.sp + 1 := rfl
@[simp] theorem push_stack : (s.push a).stack = s.stack.set s.sp a := rfl
@[simp] theorem push_dt : (s.push a).dt = s.dt := rfl
@[simp] theorem push_st : (s.push a).st = s.st := rfl
@[simp] theorem push_fb : (s.push a).fb = s.fb := rfl
@[simp] theorem push_keys : (s.push a).keys = s.keys := rfl
@[simp] theorem push_mem : (s.push a).mem = s.mem := rfl
@[simp] theorem push_tickCtr : (s.push a).tickCtr = s.tickCtr := rfl
@[simp] theorem push_halted : (s.push a).halted = s.halted := rfl
@[simp] theorem push_err : (s.push a).err = s.err := rfl
@[simp] theorem push_errPc : (s.push a).errPc = s.errPc := rfl
@[simp] theorem push_errAddr : (s.push a).errAddr = s.errAddr := rfl
@[simp] theorem push_randPos : (s.push a).randPos = s.randPos := rfl
@[simp] theorem push_keysIn : (s.push a).keysIn = s.keysIn := rfl
@[simp] theorem push_quitIn : (s.push a).quitIn = s.quitIn := rfl
@[simp] theorem push_tickIn : (s.push a).tickIn = s.tickIn := rfl
@[simp] theorem push_randIn : (s.push a).randIn = s.randIn := rfl
@[simp] theorem push_unknownReport : (s.push a).unknownReport = s.unknownReport := rfl
@[simp] theorem push_waiting : (s.push a).waiting = s.waiting := rfl
@[simp] theorem push_tone : (s.push a).tone = s.tone := rfl
@[simp] theorem push_params : (s.push a).params = s.params := rfl
@[simp] theorem push_drives : (s.push a).drives = s.drives := rfl
@[simp] theorem push_runNo : (s.push a).runNo = s.runNo := rfl
end

/-! ### pop -/

section
variable (s : State)
@[simp] theorem pop_v : (s.pop).v = s.v := rfl
@[simp] theorem pop_index : (s.pop).index = s.index := rfl
@[simp] theorem pop_pc : (s.pop).pc = s.pc := rfl
@[simp] theorem pop_sp : (s.pop).sp = s.sp - 1 := rfl
@[simp] theorem pop_stack : (s.pop).stack = s.stack := rfl
@[simp] theorem pop_dt : (s.pop).dt = s.dt := rfl
@[simp] theorem pop_st : (s.pop).st = s.st := rfl
@[simp] theorem pop_fb : (s.pop).fb = s.fb := rfl
@[simp] theorem pop_keys : (s.pop).keys = s.keys := rfl
@[simp] theorem pop_mem : (s.pop).mem = s.mem := rfl
@[simp] theorem pop_tickCtr : (s.pop).tickCtr = s.tickCtr := rfl
@[simp] theorem pop_halted : (s.pop).halted = s.halted := rfl
@[simp] theorem pop_err : (s.pop).err = s.err := rfl
@[simp] theorem pop_errPc : (s.pop).errPc = s.errPc := rfl
@[simp] theorem pop_errAddr : (s.pop).errAddr = s.errAddr := rfl
@[simp] theorem pop_randPos : (s.pop).randPos = s.randPos := rfl
@[simp] theorem pop_keysIn : (s.pop).keysIn = s.keysIn := rfl
@[simp] theorem pop_quitIn : (s.pop).quitIn = s.quitIn := rfl
@[simp] theorem pop_tickIn : (s.pop).tickIn = s.tickIn := rfl
@[simp] theorem pop_randIn : (s.pop).randIn = s.randIn := rfl
@[simp] theorem pop_unknownReport : (s.pop).unknownReport = s.unknownReport := rfl
@[simp] theorem pop_waiting : (s.pop).waiting = s.waiting := rfl
@[simp] theorem pop_tone : (s.pop).tone = s.tone := rfl
@[simp] theorem pop_params : (s.pop).params = s.params := rfl
@[simp] theorem pop_drives : (s.pop).drives = s.drives := rfl
@[simp] theorem pop_runNo : (s.pop).runNo = s.runNo := rfl
end

/-! ### takeRand -/

section
variable (s : State)
@[simp] theorem takeRand_v : (s.takeRand).v = s.v := rfl
@[simp] theorem takeRand_index : (s.takeRand).index = s.index := rfl
@[simp] theorem takeRand_pc : (s.takeRand).pc = s.pc := rfl
@[simp] theorem takeRand_sp : (s.takeRand).sp = s.sp := rfl
@[simp] theorem takeRand_stack : (s.takeRand).stack = s.stack := rfl
@[simp] theorem takeRand_dt : (s.takeRand).dt = s.dt := rfl
@[simp] theorem takeRand_st : (s.takeRand).st = s.st := rfl
@[simp] theorem takeRand_fb : (s.takeRand).fb = s.fb := rfl
@[simp] theorem takeRand_keys : (s.takeRand).keys = s.keys := rfl
@[simp] theorem takeRand_mem : (s.takeRand).mem = s.mem := rfl
@[simp] theorem takeRand_tickCtr : (s.takeRand).tickCtr = s.tickCtr := rfl
@[simp] theorem takeRand_halted : (s.takeRand).halted = s.halted := rfl
@[simp] theorem takeRand_err : (s.takeRand).err = s.err := rfl
@[simp] theorem takeRand_errPc : (s.takeRand).errPc = s.errPc := rfl
@[simp] theorem takeRand_errAddr : (s.takeRand).errAddr = s.errAddr := rfl
@[simp] theorem takeRand_randPos : (s.takeRand).randPos = s.randPos + 1 := rfl
@[simp] theorem takeRand_keysIn : (s.takeRand).keysIn = s.keysIn := rfl
@[simp] theorem takeRand_quitIn : (s.takeRand).quitIn = s.quitIn := rfl
@[simp] theorem takeRand_tickIn : (s.takeRand).tickIn = s.tickIn := rfl
@[simp] theorem takeRand_randIn : (s.takeRand).randIn = s.randIn.tail := rfl
@[simp] theorem takeRand_unknownReport : (s.takeRand).unknownReport = s.unknownReport := rfl
@[simp] theorem takeRand_waiting : (s.takeRand).waiting = s.waiting := rfl
@[simp] theorem takeRand_tone : (s.takeRand).tone = s.tone := rfl
@[simp] theorem takeRand_params : (s.takeRand).params = s.params := rfl
@[simp] theorem takeRand_drives : (s.takeRand).drives = s.drives := rfl
@[simp] theorem takeRand_runNo : (s.takeRand).runNo = s.runNo := rfl
end

/-! ### raise -/

section
variable (s : State) (c : Cause) (a : BitVec 17)
@[simp] theorem raise_v : (s.raise c a).v = s.v := rfl
@[simp] theorem raise_index : (s.raise c a).index = s.index := rfl
@[simp] theorem raise_pc : (s.raise c a).pc = s.pc := rfl
@[simp] theorem raise_sp : (s.raise c a).sp = s.sp := rfl
@[simp] theorem raise_stack : (s.raise c a).stack = s.stack := rfl
@[simp] theorem raise_dt : (s.raise c a).dt = s.dt := rfl
@[simp] theorem raise_st : (s.raise c a).st = s.st := rfl
@[simp] theorem raise_fb : (s.raise c a).fb = s.fb := rfl
@[simp] theorem raise_keys : (s.raise c a).keys = s.keys := rfl
@[simp] theorem raise_mem : (s.raise c a).mem = s.mem := rfl
@[simp] theorem raise_tickCtr : (s.raise c a).tickCtr = s.tickCtr := rfl
@[simp] theorem raise_halted : (s.raise c a).halted = true := rfl
@[simp] theorem raise_err : (s.raise c a).err = c := rfl
@[simp] theorem raise_errPc : (s.raise c a).errPc = s.pc := rfl
@[simp] theorem raise_errAddr : (s.raise c a).errAddr = a := rfl
@[simp] theorem raise_randPos : (s.raise c a).randPos = s.randPos := rfl
@[simp] theorem raise_keysIn : (s.raise c a).keysIn = s.keysIn := rfl
@[simp] theorem raise_quitIn : (s.raise c a).quitIn = s.quitIn := rfl
@[simp] theorem raise_tickIn : (s.raise c a).tickIn = s.tickIn := rfl
@[simp] theorem raise_randIn : (s.raise c a).randIn = s.randIn := rfl
@[simp] theorem raise_unknownReport : (s.raise c a).unknownReport = s.unknownReport := rfl
@[simp] theorem raise_waiting : (s.raise c a).waiting = s.waiting := rfl
@[simp] theorem raise_tone : (s.raise c a).tone = s.tone := rfl
@[simp] theorem raise_params : (s.raise c a).params = s.params := rfl
@[simp] theorem raise_drives : (s.raise c a).drives = s.drives := rfl
@[simp] theorem raise_runNo : (s.raise c a).runNo = s.runNo := rfl
end

/-! ### takeDrive -/

section
variable (s : State) (k : BitVec 16) (q t : Bool) (d : List HostEvent)
@[simp] theorem takeDrive_v : (s.takeDrive k q t d).v = s.v := rfl
@[simp] theorem takeDrive_index : (s.takeDrive k q t d).index = s.index := rfl
@[simp] theorem takeDrive_pc : (s.takeDrive k q t d).pc = s.pc := rfl
@[simp] theorem takeDrive_sp : (s.takeDrive k q t d).sp = s.sp := rfl
@[simp] theorem takeDrive_stack : (s.takeDrive k q t d).stack = s.stack := rfl
@[simp] theorem takeDrive_dt : (s.takeDrive k q t d).dt = s.dt := rfl
@[simp] theorem takeDrive_st : (s.takeDrive k q t d).st = s.st := rfl
@[simp] theorem takeDrive_fb : (s.takeDrive k q t d).fb = s.fb := rfl
@[simp] theorem takeDrive_keys : (s.takeDrive k q t d).keys = s.keys := rfl
@[simp] theorem takeDrive_mem : (s.takeDrive k q t d).mem = s.mem := rfl
@[simp] theorem takeDrive_tickCtr : (s.takeDrive k q t d).tickCtr = s.tickCtr := rfl
@[simp] theorem takeDrive_halted : (s.takeDrive k q t d).halted = s.halted := rfl
@[simp] theorem takeDrive_err : (s.takeDrive k q t d).err = s.err := rfl
@[simp] theorem takeDrive_errPc : (s.takeDrive k q t d).errPc = s.errPc := rfl
@[simp] theorem takeDrive_errAddr : (s.takeDrive k q t d).errAddr = s.errAddr := rfl
@[simp] theorem takeDrive_randPos : (s.takeDrive k q t d).randPos = s.randPos := rfl
@[simp] theorem takeDrive_keysIn : (s.takeDrive k q t d).keysIn = k := rfl
@[simp] theorem takeDrive_quitIn : (s.takeDrive k q t d).quitIn = q := rfl
@[simp] theorem takeDrive_tickIn : (s.takeDrive k q t d).tickIn = t := rfl
@[simp] theorem takeDrive_randIn : (s.takeDrive k q t d).randIn = s.randIn := rfl
@[simp] theorem takeDrive_unknownReport : (s.takeDrive k q t d).unknownReport = s.unknownReport := rfl
@[simp] theorem takeDrive_waiting : (s.takeDrive k q t d).waiting = s.waiting := rfl
@[simp] theorem takeDrive_tone : (s.takeDrive k q t d).tone = s.tone := rfl
@[simp] theorem takeDrive_params : (s.takeDrive k q t d).params = s.params := rfl
@[simp] theorem takeDrive_drives : (s.takeDrive k q t d).drives = d := rfl
@[simp] theorem takeDrive_runNo : (s.takeDrive k q t d).runNo = s.runNo := rfl
end

/-! ### quit -/

section
variable (s : State)
@[simp] theorem quit_v : (s.quit).v = s.v := rfl
@[simp] theorem quit_index : (s.quit).index = s.index := rfl
@[simp] theorem quit_pc : (s.quit).pc = s.pc := rfl
@[simp] theorem quit_sp : (s.quit).sp = s.sp := rfl
@[simp] theorem quit_stack : (s.quit).stack = s.stack := rfl
@[simp] theorem quit_dt : (s.quit).dt = s.dt := rfl
@[simp] theorem quit_st : (s.quit).st = s.st := rfl
@[simp] theorem quit_fb : (s.quit).fb = s.fb := rfl
@[simp] theorem quit_keys : (s.quit).keys = s.keys := rfl
@[simp] theorem quit_mem : (s.quit).mem = s.mem := rfl
@[simp] theorem quit_tickCtr : (s.quit).tickCtr = s.tickCtr := rfl
@[simp] theorem quit_halted : (s.quit).halted = true := rfl
@[simp] theorem quit_err : (s.quit).err = s.err := rfl
@[simp] theorem quit_errPc : (s.quit).errPc = s.errPc := rfl
@[simp] theorem quit_errAddr : (s.quit).errAddr = s.errAddr := rfl
@[simp] theorem quit_randPos : (s.quit).randPos = s.randPos := rfl
@[simp] theorem quit_keysIn : (s.quit).keysIn = s.keysIn := rfl
@[simp] theorem quit_quitIn : (s.quit).quitIn = s.quitIn := rfl
@[simp] theorem quit_tickIn : (s.quit).tickIn = s.tickIn := rfl
@[simp] theorem quit_randIn : (s.quit).randIn = s.randIn := rfl
@[simp] theorem quit_unknownReport : (s.quit).unknownReport = s.unknownReport := rfl
@[simp] theorem quit_waiting : (s.quit).waiting = s.waiting := rfl
@[simp] theorem quit_tone : (s.quit).tone = s.tone := rfl
@[simp] theorem quit_params : (s.quit).params = s.params := rfl
@[simp] theorem quit_drives : (s.quit).drives = s.drives := rfl
@[simp] theorem quit_runNo : (s.quit).runNo = s.runNo := rfl
end

/-! ### sampleKeys -/

section
variable (s : State)
@[simp] theorem sampleKeys_v : (s.sampleKeys).v = s.v := rfl
@[simp] theorem sampleKeys_index : (s.sampleKeys).index = s.index := rfl
@[simp] theorem sampleKeys_pc : (s.sampleKeys).pc = s.pc := rfl
@[simp] theorem sampleKeys_sp : (s.sampleKeys).sp = s.sp := rfl
@[simp] theorem sampleKeys_stack : (s.sampleKeys).stack = s.stack := rfl
@[simp] theorem sampleKeys_dt : (s.sampleKeys).dt = s.dt := rfl
@[simp] theorem sampleKeys_st : (s.sampleKeys).st = s.st := rfl
@[simp] theorem sampleKeys_fb : (s.sampleKeys).fb = s.fb := rfl
@[simp] theorem sampleKeys_keys : (s.sampleKeys).keys = s.keysIn := rfl
@[simp] theorem sampleKeys_mem : (s.sampleKeys).mem = s.mem := rfl
@[simp] theorem sampleKeys_tickCtr : (s.sampleKeys).tickCtr = s.tickCtr := rfl
@[simp] theorem sampleKeys_halted : (s.sampleKeys).halted = s.halted := rfl
@[simp] theorem sampleKeys_err : (s.sampleKeys).err = s.err := rfl
@[simp] theorem sampleKeys_errPc : (s.sampleKeys).errPc = s.errPc := rfl
@[simp] theorem sampleKeys_errAddr : (s.sampleKeys).errAddr = s.errAddr := rfl
@[simp] theorem sampleKeys_randPos : (s.sampleKeys).randPos = s.randPos := rfl
@[simp] theorem sampleKeys_keysIn : (s.sampleKeys).keysIn = s.keysIn := rfl
@[simp] theorem sampleKeys_quitIn : (s.sampleKeys).quitIn = s.quitIn := rfl
@[simp] theorem sampleKeys_tickIn : (s.sampleKeys).tickIn = s.tickIn := rfl
@[simp] theorem sampleKeys_randIn : (s.sampleKeys).randIn = s.randIn := rfl
@[simp] theorem sampleKeys_unknownReport : (s.sampleKeys).unknownReport = none := rfl
@[simp] theorem sampleKeys_waiting : (s.sampleKeys).waiting = false := rfl
@[simp] theorem sampleKeys_tone : (s.sampleKeys).tone = s.tone := rfl
@[simp] theorem sampleKeys_params : (s.sampleKeys).params = s.params := rfl
@[simp] theorem sampleKeys_drives : (s.sampleKeys).drives = s.drives := rfl
@[simp] theorem sampleKeys_runNo : (s.sampleKeys).runNo = s.runNo := rfl
end

/-! ### present -/

section
variable (s : State)
@[simp] theorem present_v : (s.present).v = s.v := rfl
@[simp] theorem present_index : (s.present).index = s.index := rfl
@[simp] theorem present_pc : (s.present).pc = s.pc := rfl
@[simp] theorem present_sp : (s.present).sp = s.sp := rfl
@[simp] theorem present_stack : (s.present).stack = s.stack := rfl
@[simp] theorem present_dt : (s.present).dt = s.dt := rfl
@[simp] theorem present_st : (s.present).st = s.st := rfl
@[simp] theorem present_fb : (s.present).fb = s.fb := rfl
@[simp] theorem present_keys : (s.present).keys = s.keys := rfl
@[simp] theorem present_mem : (s.present).mem = s.mem := rfl
@[simp] theorem present_tickCtr : (s.present).tickCtr = s.tickCtr := rfl
@[simp] theorem present_halted : (s.present).halted = s.halted := rfl
@[simp] theorem present_err : (s.present).err = s.err := rfl
@[simp] theorem present_errPc : (s.present).errPc = s.errPc := rfl
@[simp] theorem present_errAddr : (s.present).errAddr = s.errAddr := rfl
@[simp] theorem present_randPos : (s.present).randPos = s.randPos := rfl
@[simp] theorem present_keysIn : (s.present).keysIn = s.keysIn := rfl
@[simp] theorem present_quitIn : (s.present).quitIn = s.quitIn := rfl
@[simp] theorem present_tickIn : (s.present).tickIn = s.tickIn := rfl
@[simp] theorem present_randIn : (s.present).randIn = s.randIn := rfl
@[simp] theorem present_unknownReport : (s.present).unknownReport = s.unknownReport := rfl
@[simp] theorem present_waiting : (s.present).waiting = s.waiting := rfl
@[simp] theorem present_tone : (s.present).tone = decide (0 < s.st.toNat) := rfl
@[simp] theorem present_params : (s.present).params = s.params := rfl
@[simp] theorem present_drives : (s.present).drives = s.drives := rfl
@[simp] theorem present_runNo : (s.present).runNo = s.runNo := rfl
end

/-! ### Compound updates -/

@[simp] theorem advance_eq (s : State) : s.advance = s.setPc (s.pc + 2) := rfl

@[simp] theorem skipIf_eq (s : State) (c : Bool) :
    s.skipIf c = s.setPc (if c then s.pc + 4 else s.pc + 2) := rfl

@[simp] theorem setRegFlag_eq (s : State) (x : Nibble) (r f : Byte) :
    s.setRegFlag x r f = (s.setReg x r).setReg regF f := rfl

@[simp] theorem raiseMemory_eq (s : State) (a : Word) :
    s.raiseMemory a = s.raise .memoryFault (BitVec.ofNat 17 (max a.toNat 0x1000)) := rfl

@[simp] theorem raiseStack_eq (s : State) (c : Cause) : s.raiseStack c = s.raise c (s.pc.setWidth 17) := rfl

/-! ### Register reads -/

@[simp] theorem reg_setReg_same (s : State) (x : Nibble) (b : Byte) : (s.setReg x b).reg x = b := by
  simp [reg]

theorem reg_setReg_other (s : State) (x r : Nibble) (b : Byte) (h : r ≠ x) :
    (s.setReg x b).reg r = s.reg r := by
  have hn : x.toNat ≠ r.toNat := fun e => h (BitVec.eq_of_toNat_eq e.symm)
  simp [reg, Vector.getElem_set_ne, hn]

theorem reg_setReg (s : State) (x r : Nibble) (b : Byte) :
    (s.setReg x b).reg r = if r = x then b else s.reg r := by
  by_cases h : r = x
  · simp [h]
  · simp [h, reg_setReg_other]

/-- Reading a register depends on the register file alone. -/
theorem reg_congr (s t : State) (h : t.v = s.v) (r : Nibble) : t.reg r = s.reg r := by
  simp [reg, h]

/-! ### The tick step -/

/-- A tick step that fires. -/
theorem tickStep_fires (s : State) (h : s.tickFires = true) :
    s.tickStep = { s with dt := countDown s.dt, st := countDown s.st, tickCtr := 0 } := by
  simp [tickStep, h]

/-- A tick step that does not fire. -/
theorem tickStep_counts (s : State) (h : s.tickFires = false) :
    s.tickStep = { s with tickCtr := s.tickCtr + 1 } := by
  simp [tickStep, h]

/-- A tick step touches the timers and tick_ctr alone. -/
theorem tickStep_frame (s : State) :
    s.tickStep = { s with dt := s.tickStep.dt, st := s.tickStep.st, tickCtr := s.tickStep.tickCtr } := by
  cases h : s.tickFires
  · rw [tickStep_counts s h]
  · rw [tickStep_fires s h]

@[simp] theorem tickStep_v (s : State) : s.tickStep.v = s.v := by rw [tickStep_frame]
@[simp] theorem tickStep_index (s : State) : s.tickStep.index = s.index := by rw [tickStep_frame]
@[simp] theorem tickStep_pc (s : State) : s.tickStep.pc = s.pc := by rw [tickStep_frame]
@[simp] theorem tickStep_sp (s : State) : s.tickStep.sp = s.sp := by rw [tickStep_frame]
@[simp] theorem tickStep_stack (s : State) : s.tickStep.stack = s.stack := by rw [tickStep_frame]
@[simp] theorem tickStep_fb (s : State) : s.tickStep.fb = s.fb := by rw [tickStep_frame]
@[simp] theorem tickStep_keys (s : State) : s.tickStep.keys = s.keys := by rw [tickStep_frame]
@[simp] theorem tickStep_mem (s : State) : s.tickStep.mem = s.mem := by rw [tickStep_frame]
@[simp] theorem tickStep_halted (s : State) : s.tickStep.halted = s.halted := by rw [tickStep_frame]
@[simp] theorem tickStep_err (s : State) : s.tickStep.err = s.err := by rw [tickStep_frame]
@[simp] theorem tickStep_errPc (s : State) : s.tickStep.errPc = s.errPc := by rw [tickStep_frame]
@[simp] theorem tickStep_errAddr (s : State) : s.tickStep.errAddr = s.errAddr := by rw [tickStep_frame]
@[simp] theorem tickStep_randPos (s : State) : s.tickStep.randPos = s.randPos := by rw [tickStep_frame]
@[simp] theorem tickStep_keysIn (s : State) : s.tickStep.keysIn = s.keysIn := by rw [tickStep_frame]
@[simp] theorem tickStep_quitIn (s : State) : s.tickStep.quitIn = s.quitIn := by rw [tickStep_frame]
@[simp] theorem tickStep_tickIn (s : State) : s.tickStep.tickIn = s.tickIn := by rw [tickStep_frame]
@[simp] theorem tickStep_randIn (s : State) : s.tickStep.randIn = s.randIn := by rw [tickStep_frame]
@[simp] theorem tickStep_unknownReport (s : State) : s.tickStep.unknownReport = s.unknownReport := by rw [tickStep_frame]
@[simp] theorem tickStep_waiting (s : State) : s.tickStep.waiting = s.waiting := by rw [tickStep_frame]
@[simp] theorem tickStep_tone (s : State) : s.tickStep.tone = s.tone := by rw [tickStep_frame]
@[simp] theorem tickStep_params (s : State) : s.tickStep.params = s.params := by rw [tickStep_frame]
@[simp] theorem tickStep_drives (s : State) : s.tickStep.drives = s.drives := by rw [tickStep_frame]
@[simp] theorem tickStep_runNo (s : State) : s.tickStep.runNo = s.runNo := by rw [tickStep_frame]

/-- Counting down is subtraction that stops at 0. -/
theorem countDown_toNat (b : Byte) : (countDown b).toNat = b.toNat - 1 := by
  unfold countDown
  split
  · next h =>
    have := b.isLt
    simp [BitVec.toNat_sub]
    omega
  · omega

end Sys2Proof.Machine.State
end

