-- ==== Sys2Proof/Laws/Exec.lean ====
section
/-! SUPPORT. What the instructions with a condition do, one equation for each side of the condition, and what the operand
and flag helpers compute. The meanings without a condition are one equation by rfl. -/

namespace Sys2Proof.Machine

variable (s : State) (x y n : Nibble) (nnn : Addr12)

/-! Registers after a flag-writing instruction (43_alu.md R156). -/

/-- VF holds the flag, which is written last. -/
theorem State.reg_setRegFlag_flag (r f : Byte) : (s.setRegFlag x r f).reg 15 = f :=
  State.reg_setReg_same (s.setReg x r) regF f

/-- The destination holds the result when it is not VF. -/
theorem State.reg_setRegFlag_dest (r f : Byte) (h : x ≠ 15) : (s.setRegFlag x r f).reg x = r :=
  (State.reg_setReg_other (s.setReg x r) regF x f h).trans (State.reg_setReg_same s x r)

/-- Every other register stands. -/
theorem State.reg_setRegFlag_other (r f : Byte) (k : Nibble) (h : k ≠ x) (hf : k ≠ 15) :
    (s.setRegFlag x r f).reg k = s.reg k :=
  (State.reg_setReg_other (s.setReg x r) regF k f hf).trans (State.reg_setReg_other s x k r h)

/-- Moving PC writes no V register. -/
theorem State.reg_advance (k : Nibble) : s.advance.reg k = s.reg k := rfl

/-! RET and CALL (41_flow.md R131, R133). -/

theorem exec_ret_of_ne (h : s.sp ≠ 0) : exec .ret s = .next (s.pop.setPc (s.top + 2)) := if_neg h

theorem exec_ret_of_empty (h : s.sp = 0) : exec .ret s = .next (s.raiseStack .stackUnderflow) := if_pos h

theorem exec_call_of_ne (h : s.sp ≠ s.params.stackMax) :
    exec (.call nnn) s = .next ((s.push s.pc).setPc (addrOperand nnn)) := if_neg h

theorem exec_call_of_full (h : s.sp = s.params.stackMax) :
    exec (.call nnn) s = .next (s.raiseStack .stackOverflow) := if_pos h

/-! BCD, STM, LDM and DRW (20_memory.md R63). -/

theorem exec_bcd_of_le (h : s.index.toNat + 2 ≤ 0xFFF) :
    exec (.bcd x) s = .next (s.setMem (s.mem.writeBytes (s.dataAddr 0) (bcdDigits (s.reg x)))).advance :=
  if_pos ((inRange_iff _ _).mpr (by simp only [State.dataAddr]; omega))

theorem exec_bcd_of_gt (h : 0xFFF < s.index.toNat + 2) : exec (.bcd x) s = .next (s.raiseMemory s.index) :=
  if_neg (by rw [inRange_iff]; simp only [State.dataAddr]; omega)

theorem exec_stm_of_le (h : s.index.toNat + x.toNat ≤ 0xFFF) :
    exec (.stm x) s = .next (s.setMem (storeRegs s.v (s.dataAddr 0) s.mem (x.toNat + 1))).advance :=
  if_pos ((inRange_iff _ _).mpr (by simp only [State.dataAddr]; omega))

theorem exec_stm_of_gt (h : 0xFFF < s.index.toNat + x.toNat) :
    exec (.stm x) s = .next (s.raiseMemory s.index) :=
  if_neg (by rw [inRange_iff]; simp only [State.dataAddr]; omega)

theorem exec_ldm_of_le (h : s.index.toNat + x.toNat ≤ 0xFFF) :
    exec (.ldm x) s = .next (s.setRegs (loadRegs s.mem (s.dataAddr 0) s.v (x.toNat + 1))).advance :=
  if_pos ((inRange_iff _ _).mpr (by simp only [State.dataAddr]; omega))

theorem exec_ldm_of_gt (h : 0xFFF < s.index.toNat + x.toNat) :
    exec (.ldm x) s = .next (s.raiseMemory s.index) :=
  if_neg (by rw [inRange_iff]; simp only [State.dataAddr]; omega)

/-- The rows DRW draws. -/
abbrev drwRows : Nat := drawnRows ((s.reg y).toNat % 32) n.toNat

/-- What DRW draws. -/
abbrev drwDrawn : Framebuffer × Bool :=
  drawRows s.mem (s.dataAddr 0) ((s.reg x).toNat % 64) ((s.reg y).toNat % 32) s.fb (drwRows s y n)

theorem exec_drw_of_le (h : drwRows s y n = 0 ∨ s.index.toNat + drwRows s y n ≤ 0x1000) :
    exec (.drw x y n) s =
      .next ((s.setFb (drwDrawn s x y n).1).setReg regF (collisionFlag (drwDrawn s x y n).2)).advance :=
  if_pos (by simpa [inRange_iff, State.dataAddr] using h)

theorem exec_drw_of_gt (h : drwRows s y n ≠ 0) (hi : 0x1000 < s.index.toNat + drwRows s y n) :
    exec (.drw x y n) s = .next (s.raiseMemory s.index) :=
  if_neg (by simp [inRange_iff, State.dataAddr, h]; omega)

/-! WAIT_KEY (45_keys_timers.md R183). -/

theorem exec_waitKey_of_some (k : Nat) (h : lowestKey s.keys = some k) :
    exec (.waitKey x) s = .next (s.setReg x (BitVec.ofNat 8 k)).advance := by
  simp only [exec, execWaitKey, h]

theorem exec_waitKey_of_none (h : lowestKey s.keys = none) :
    exec (.waitKey x) s = .next (s.setWaiting true) := by
  simp only [exec, execWaitKey, h]

/-- No key from `k` on is pressed. -/
theorem lowestKeyFrom_none (keys : BitVec 16) (k m : Nat) :
    lowestKeyFrom keys k m = none ↔ ∀ j, k ≤ j → j < k + m → keys.getLsbD j = false := by
  induction m generalizing k with
  | zero => simp [lowestKeyFrom]; intro j; omega
  | succ m ih =>
    simp only [lowestKeyFrom]
    split
    · next h =>
      simp only [reduceCtorEq, false_iff]
      intro hall
      simp [hall k (by omega) (by omega)] at h
    · next h =>
      rw [ih]
      refine ⟨fun hall j h1 h2 => ?_, fun hall j h1 h2 => hall j (by omega) (by omega)⟩
      by_cases e : j = k
      · subst e; simpa using h
      · exact hall j (by omega) (by omega)

/-- The first pressed key from `k` on. -/
theorem lowestKeyFrom_some (keys : BitVec 16) (k m j : Nat) (h1 : k ≤ j) (h2 : j < k + m)
    (hj : keys.getLsbD j = true) (hlow : ∀ i, k ≤ i → i < j → keys.getLsbD i = false) :
    lowestKeyFrom keys k m = some j := by
  induction m generalizing k with
  | zero => omega
  | succ m ih =>
    simp only [lowestKeyFrom]
    by_cases e : k = j
    · subst e; simp [hj]
    · simp [hlow k (by omega) (by omega)]
      exact ih (k + 1) (by omega) (by omega) fun i h3 h4 => hlow i (by omega) h4

/-- With no key pressed there is no lowest one. -/
theorem lowestKey_none (keys : BitVec 16) :
    lowestKey keys = none ↔ ∀ j, j < 16 → keys.getLsbD j = false := by
  simp [lowestKey, lowestKeyFrom_none]

/-- The least pressed key is the one WAIT_KEY takes. -/
theorem lowestKey_some (keys : BitVec 16) (j : Nat) (h : j < 16) (hj : keys.getLsbD j = true)
    (hlow : ∀ i, i < j → keys.getLsbD i = false) : lowestKey keys = some j :=
  lowestKeyFrom_some keys 0 16 j (by omega) (by omega) hj fun i _ hi => hlow i hi

/-! Operands (44_index_memory.md R172, 41_flow.md R134). -/

theorem offsetOperand_toNat (v : Byte) : (offsetOperand nnn v).toNat = nnn.toNat + v.toNat := by
  have h1 := nnn.isLt
  have h2 := v.isLt
  simp [offsetOperand]
  omega

theorem addrOperand_toNat : (addrOperand nnn).toNat = nnn.toNat := by
  have h1 := nnn.isLt
  simp [addrOperand]
  omega

end Sys2Proof.Machine
end

