-- ==== Sys2Proof/Laws/PerInstr.lean ====
section
/-! SUPPORT. Which words the opcode map selects, by their fields (30_encoding.md R96), and the family EncodingSelectsRow:
the word of an instruction is a word of the map exactly when the instruction is a defined one. -/

namespace Sys2Proof

/-- The words of the opcode map, row by row, by field (30_encoding.md R94, R96). -/
theorem isDefinedWord_iff (w : Word) :
    isDefinedWord w = true ↔
      w = 0x00E0 ∨ w = 0x00EE ∨ fieldOp w = 0x1 ∨ fieldOp w = 0x2 ∨ fieldOp w = 0x3 ∨ fieldOp w = 0x4 ∨
      (fieldOp w = 0x5 ∧ fieldN w = 0x0) ∨ fieldOp w = 0x6 ∨ fieldOp w = 0x7 ∨ (fieldOp w = 0x8 ∧ fieldN w =
      0x0) ∨ (fieldOp w = 0x8 ∧ fieldN w = 0x1) ∨ (fieldOp w = 0x8 ∧ fieldN w = 0x2) ∨ (fieldOp w = 0x8 ∧
      fieldN w = 0x3) ∨ (fieldOp w = 0x8 ∧ fieldN w = 0x4) ∨ (fieldOp w = 0x8 ∧ fieldN w = 0x5) ∨ (fieldOp w =
      0x8 ∧ fieldN w = 0x6) ∨ (fieldOp w = 0x8 ∧ fieldN w = 0x7) ∨ (fieldOp w = 0x8 ∧ fieldN w = 0xE) ∨
      (fieldOp w = 0x9 ∧ fieldN w = 0x0) ∨ fieldOp w = 0xA ∨ fieldOp w = 0xB ∨ fieldOp w = 0xC ∨ fieldOp w =
      0xD ∨ (fieldOp w = 0xE ∧ fieldNN w = 0x9E) ∨ (fieldOp w = 0xE ∧ fieldNN w = 0xA1) ∨ (fieldOp w = 0xF ∧
      fieldNN w = 0x07) ∨ (fieldOp w = 0xF ∧ fieldNN w = 0x0A) ∨ (fieldOp w = 0xF ∧ fieldNN w = 0x15) ∨
      (fieldOp w = 0xF ∧ fieldNN w = 0x18) ∨ (fieldOp w = 0xF ∧ fieldNN w = 0x1E) ∨ (fieldOp w = 0xF ∧ fieldNN
      w = 0x29) ∨ (fieldOp w = 0xF ∧ fieldNN w = 0x33) ∨ (fieldOp w = 0xF ∧ fieldNN w = 0x55) ∨ (fieldOp w =
      0xF ∧ fieldNN w = 0x65) := by
  have full : ∀ v : Word, w &&& 0xFFFF = v ↔ w = v := fun v => by
    rw [show w &&& 0xFFFF = w from BitVec.and_allOnes]
  have a1 : w &&& 0xF000 = 0x1000 ↔ fieldOp w = 0x1 := mask_F000 w 0x1#4
  have a2 : w &&& 0xF000 = 0x2000 ↔ fieldOp w = 0x2 := mask_F000 w 0x2#4
  have a3 : w &&& 0xF000 = 0x3000 ↔ fieldOp w = 0x3 := mask_F000 w 0x3#4
  have a4 : w &&& 0xF000 = 0x4000 ↔ fieldOp w = 0x4 := mask_F000 w 0x4#4
  have r50 : w &&& 0xF00F = 0x5000 ↔ fieldOp w = 0x5 ∧ fieldN w = 0x0 :=
    mask_F00F w 0x5#4 0x0#4
  have a6 : w &&& 0xF000 = 0x6000 ↔ fieldOp w = 0x6 := mask_F000 w 0x6#4
  have a7 : w &&& 0xF000 = 0x7000 ↔ fieldOp w = 0x7 := mask_F000 w 0x7#4
  have r80 : w &&& 0xF00F = 0x8000 ↔ fieldOp w = 0x8 ∧ fieldN w = 0x0 :=
    mask_F00F w 0x8#4 0x0#4
  have r81 : w &&& 0xF00F = 0x8001 ↔ fieldOp w = 0x8 ∧ fieldN w = 0x1 :=
    mask_F00F w 0x8#4 0x1#4
  have r82 : w &&& 0xF00F = 0x8002 ↔ fieldOp w = 0x8 ∧ fieldN w = 0x2 :=
    mask_F00F w 0x8#4 0x2#4
  have r83 : w &&& 0xF00F = 0x8003 ↔ fieldOp w = 0x8 ∧ fieldN w = 0x3 :=
    mask_F00F w 0x8#4 0x3#4
  have r84 : w &&& 0xF00F = 0x8004 ↔ fieldOp w = 0x8 ∧ fieldN w = 0x4 :=
    mask_F00F w 0x8#4 0x4#4
  have r85 : w &&& 0xF00F = 0x8005 ↔ fieldOp w = 0x8 ∧ fieldN w = 0x5 :=
    mask_F00F w 0x8#4 0x5#4
  have r86 : w &&& 0xF00F = 0x8006 ↔ fieldOp w = 0x8 ∧ fieldN w = 0x6 :=
    mask_F00F w 0x8#4 0x6#4
  have r87 : w &&& 0xF00F = 0x8007 ↔ fieldOp w = 0x8 ∧ fieldN w = 0x7 :=
    mask_F00F w 0x8#4 0x7#4
  have r8E : w &&& 0xF00F = 0x800E ↔ fieldOp w = 0x8 ∧ fieldN w = 0xE :=
    mask_F00F w 0x8#4 0xE#4
  have r90 : w &&& 0xF00F = 0x9000 ↔ fieldOp w = 0x9 ∧ fieldN w = 0x0 :=
    mask_F00F w 0x9#4 0x0#4
  have aA : w &&& 0xF000 = 0xA000 ↔ fieldOp w = 0xA := mask_F000 w 0xA#4
  have aB : w &&& 0xF000 = 0xB000 ↔ fieldOp w = 0xB := mask_F000 w 0xB#4
  have aC : w &&& 0xF000 = 0xC000 ↔ fieldOp w = 0xC := mask_F000 w 0xC#4
  have aD : w &&& 0xF000 = 0xD000 ↔ fieldOp w = 0xD := mask_F000 w 0xD#4
  have bE9E : w &&& 0xF0FF = 0xE09E ↔ fieldOp w = 0xE ∧ fieldNN w = 0x9E :=
    mask_F0FF w 0xE#4 0x9E#8
  have bEA1 : w &&& 0xF0FF = 0xE0A1 ↔ fieldOp w = 0xE ∧ fieldNN w = 0xA1 :=
    mask_F0FF w 0xE#4 0xA1#8
  have bF07 : w &&& 0xF0FF = 0xF007 ↔ fieldOp w = 0xF ∧ fieldNN w = 0x07 :=
    mask_F0FF w 0xF#4 0x07#8
  have bF0A : w &&& 0xF0FF = 0xF00A ↔ fieldOp w = 0xF ∧ fieldNN w = 0x0A :=
    mask_F0FF w 0xF#4 0x0A#8
  have bF15 : w &&& 0xF0FF = 0xF015 ↔ fieldOp w = 0xF ∧ fieldNN w = 0x15 :=
    mask_F0FF w 0xF#4 0x15#8
  have bF18 : w &&& 0xF0FF = 0xF018 ↔ fieldOp w = 0xF ∧ fieldNN w = 0x18 :=
    mask_F0FF w 0xF#4 0x18#8
  have bF1E : w &&& 0xF0FF = 0xF01E ↔ fieldOp w = 0xF ∧ fieldNN w = 0x1E :=
    mask_F0FF w 0xF#4 0x1E#8
  have bF29 : w &&& 0xF0FF = 0xF029 ↔ fieldOp w = 0xF ∧ fieldNN w = 0x29 :=
    mask_F0FF w 0xF#4 0x29#8
  have bF33 : w &&& 0xF0FF = 0xF033 ↔ fieldOp w = 0xF ∧ fieldNN w = 0x33 :=
    mask_F0FF w 0xF#4 0x33#8
  have bF55 : w &&& 0xF0FF = 0xF055 ↔ fieldOp w = 0xF ∧ fieldNN w = 0x55 :=
    mask_F0FF w 0xF#4 0x55#8
  have bF65 : w &&& 0xF0FF = 0xF065 ↔ fieldOp w = 0xF ∧ fieldNN w = 0x65 :=
    mask_F0FF w 0xF#4 0x65#8
  simp only [isDefinedWord, opcodeRows, OpcodeRow.selects, List.cons_append, List.nil_append, List.any_cons,
    List.any_nil, Bool.or_eq_true, beq_iff_eq, Bool.or_false, full,
    a1, a2, a3, a4, r50, a6, a7, r80, r81, r82, r83, r84, r85, r86, r87, r8E, r90, aA, aB, aC, aD,
    bE9E, bEA1, bF07, bF0A, bF15, bF18, bF1E, bF29, bF33, bF55, bF65]

/-- The instruction is the Unknown class (46_unknown.md R190). -/
def Instr.isUnknown : Instr → Bool
  | .unknown _ => true
  | _ => false

namespace Laws.EncodingSelectsRow

/-- A well-formed instruction's word is a word of the opcode map exactly when the instruction is a defined one
(30_encoding.md R96, R97). -/
def Statement (i : Instr) : Prop := i.wellFormed = true → isDefinedWord (encode i) = !i.isUnknown

theorem cls : Statement .cls := fun _ => by decide
theorem ret : Statement .ret := fun _ => by decide
theorem jp (nnn : Addr12) : Statement (.jp nnn) := fun _ =>
  (isDefinedWord_iff _).mpr (by simp [encode])
theorem call (nnn : Addr12) : Statement (.call nnn) := fun _ =>
  (isDefinedWord_iff _).mpr (by simp [encode])
theorem seImm (x : Nibble) (nn : Byte) : Statement (.seImm x nn) := fun _ =>
  (isDefinedWord_iff _).mpr (by simp [encode])
theorem sneImm (x : Nibble) (nn : Byte) : Statement (.sneImm x nn) := fun _ =>
  (isDefinedWord_iff _).mpr (by simp [encode])
theorem seReg (x : Nibble) (y : Nibble) : Statement (.seReg x y) := fun _ =>
  (isDefinedWord_iff _).mpr (by simp [encode])
theorem ldImm (x : Nibble) (nn : Byte) : Statement (.ldImm x nn) := fun _ =>
  (isDefinedWord_iff _).mpr (by simp [encode])
theorem addImm (x : Nibble) (nn : Byte) : Statement (.addImm x nn) := fun _ =>
  (isDefinedWord_iff _).mpr (by simp [encode])
theorem mov (x : Nibble) (y : Nibble) : Statement (.mov x y) := fun _ =>
  (isDefinedWord_iff _).mpr (by simp [encode])
theorem or (x : Nibble) (y : Nibble) : Statement (.or x y) := fun _ =>
  (isDefinedWord_iff _).mpr (by simp [encode])
theorem and (x : Nibble) (y : Nibble) : Statement (.and x y) := fun _ =>
  (isDefinedWord_iff _).mpr (by simp [encode])
theorem xor (x : Nibble) (y : Nibble) : Statement (.xor x y) := fun _ =>
  (isDefinedWord_iff _).mpr (by simp [encode])
theorem add (x : Nibble) (y : Nibble) : Statement (.add x y) := fun _ =>
  (isDefinedWord_iff _).mpr (by simp [encode])
theorem sub (x : Nibble) (y : Nibble) : Statement (.sub x y) := fun _ =>
  (isDefinedWord_iff _).mpr (by simp [encode])
theorem shr (x : Nibble) (y : Nibble) : Statement (.shr x y) := fun _ =>
  (isDefinedWord_iff _).mpr (by simp [encode])
theorem subn (x : Nibble) (y : Nibble) : Statement (.subn x y) := fun _ =>
  (isDefinedWord_iff _).mpr (by simp [encode])
theorem shl (x : Nibble) (y : Nibble) : Statement (.shl x y) := fun _ =>
  (isDefinedWord_iff _).mpr (by simp [encode])
theorem sneReg (x : Nibble) (y : Nibble) : Statement (.sneReg x y) := fun _ =>
  (isDefinedWord_iff _).mpr (by simp [encode])
theorem ldI (nnn : Addr12) : Statement (.ldI nnn) := fun _ =>
  (isDefinedWord_iff _).mpr (by simp [encode])
theorem jpV0 (nnn : Addr12) : Statement (.jpV0 nnn) := fun _ =>
  (isDefinedWord_iff _).mpr (by simp [encode])
theorem rnd (x : Nibble) (nn : Byte) : Statement (.rnd x nn) := fun _ =>
  (isDefinedWord_iff _).mpr (by simp [encode])
theorem drw (x : Nibble) (y : Nibble) (n : Nibble) : Statement (.drw x y n) := fun _ =>
  (isDefinedWord_iff _).mpr (by simp [encode])
theorem skp (x : Nibble) : Statement (.skp x) := fun _ =>
  (isDefinedWord_iff _).mpr (by simp [encode])
theorem sknp (x : Nibble) : Statement (.sknp x) := fun _ =>
  (isDefinedWord_iff _).mpr (by simp [encode])
theorem getDt (x : Nibble) : Statement (.getDt x) := fun _ =>
  (isDefinedWord_iff _).mpr (by simp [encode])
theorem waitKey (x : Nibble) : Statement (.waitKey x) := fun _ =>
  (isDefinedWord_iff _).mpr (by simp [encode])
theorem setDt (x : Nibble) : Statement (.setDt x) := fun _ =>
  (isDefinedWord_iff _).mpr (by simp [encode])
theorem setSt (x : Nibble) : Statement (.setSt x) := fun _ =>
  (isDefinedWord_iff _).mpr (by simp [encode])
theorem addI (x : Nibble) : Statement (.addI x) := fun _ =>
  (isDefinedWord_iff _).mpr (by simp [encode])
theorem font (x : Nibble) : Statement (.font x) := fun _ =>
  (isDefinedWord_iff _).mpr (by simp [encode])
theorem bcd (x : Nibble) : Statement (.bcd x) := fun _ =>
  (isDefinedWord_iff _).mpr (by simp [encode])
theorem stm (x : Nibble) : Statement (.stm x) := fun _ =>
  (isDefinedWord_iff _).mpr (by simp [encode])
theorem ldm (x : Nibble) : Statement (.ldm x) := fun _ =>
  (isDefinedWord_iff _).mpr (by simp [encode])
theorem unknown (w : Word) : Statement (.unknown w) := fun h => by
  simpa [Instr.wellFormed, Instr.isUnknown, encode] using h

end Laws.EncodingSelectsRow

end Sys2Proof
end

