-- ==== Sys2Proof/Laws/Screen.lean ====
section
/-! SUPPORT. What drawing a sprite does to the framebuffer, pixel by pixel (40_screen.md R121). -/

namespace Sys2Proof.Machine

/-- The pixel of a sprite row at column `x`: bit 7 - (x - x0) of the byte, for the eight columns from x0 on. -/
theorem spriteRow_getLsbD (x0 : Nat) (b : Byte) (x : Nat) :
    (spriteRow x0 b).getLsbD x =
      (decide (x < 64) && decide (x0 ≤ x) && decide (x < x0 + 8) && b.getLsbD (7 - (x - x0))) := by
  simp only [spriteRow, BitVec.getLsbD_shiftLeft, BitVec.getLsbD_setWidth, BitVec.getLsbD_reverse,
    BitVec.getMsbD]
  by_cases h2 : x0 ≤ x
  · by_cases h3 : x < x0 + 8
    · simp [h2, h3, show ¬ x < x0 by omega, show x - x0 < 64 by omega, show x - x0 < 8 by omega]
    · simp [h3, show ¬ x - x0 < 8 by omega]
  · simp [h2, show x < x0 by omega]

/-- Row `y` after row `k` is replaced. -/
theorem fbRow_setIfInBounds (f : Framebuffer) (k y : Nat) (r : BitVec 64) (hk : k < 32) :
    fbRow (f.setIfInBounds k r) y = if y = k then r else fbRow f y := by
  by_cases h : y < 32
  · by_cases e : y = k
    · subst e
      simp [fbRow, h]
    · simp [fbRow, h, e, Vector.getElem_setIfInBounds_ne h (Ne.symm e)]
  · have e : y ≠ k := by omega
    simp [fbRow, h, e]

/-- A row other than the drawn ones is unchanged, and a drawn row is XORed with its sprite row, once. -/
theorem fbRow_drawRows (m : Memory) (base x0 y0 : Nat) (f : Framebuffer) (n y : Nat)
    (hn : y0 + n ≤ 32) :
    fbRow (drawRows m base x0 y0 f n).1 y =
      if y0 ≤ y ∧ y < y0 + n then fbRow f y ^^^ spriteRow x0 (m.read (base + (y - y0)))
      else fbRow f y := by
  induction n with
  | zero => simp [drawRows]
  | succ n ih =>
    have ihn := ih (by omega)
    simp only [drawRows]
    rw [fbRow_setIfInBounds _ _ _ _ (by omega)]
    by_cases e : y = y0 + n
    · subst e
      have hnot : ¬ (y0 ≤ y0 + n ∧ y0 + n < y0 + n) := by omega
      have hin : y0 ≤ y0 + n ∧ y0 + n < y0 + (n + 1) := by omega
      rw [if_pos rfl, if_pos hin, ihn, if_neg hnot]
      simp
    · rw [if_neg e, ihn]
      by_cases h : y0 ≤ y ∧ y < y0 + n
      · rw [if_pos h, if_pos ⟨h.1, by omega⟩]
      · rw [if_neg h, if_neg (by omega)]

/-- A collision is reported exactly when a set sprite bit falls on a pixel that was on. -/
theorem drawRows_hit (m : Memory) (base x0 y0 : Nat) (f : Framebuffer) (n : Nat) (hn : y0 + n ≤ 32) :
    (drawRows m base x0 y0 f n).2 = true ↔
      ∃ r, r < n ∧ ∃ x, x < 64 ∧ pixel f x (y0 + r) = true ∧
        (spriteRow x0 (m.read (base + r))).getLsbD x = true := by
  induction n with
  | zero => simp [drawRows]
  | succ n ih =>
    have ihn := ih (by omega)
    have hrow : fbRow (drawRows m base x0 y0 f n).1 (y0 + n) = fbRow f (y0 + n) := by
      rw [fbRow_drawRows _ _ _ _ _ _ _ (by omega), if_neg (by omega)]
    have hand : (fbRow f (y0 + n) &&& spriteRow x0 (m.read (base + n)) != 0) = true ↔
        ∃ x, x < 64 ∧ pixel f x (y0 + n) = true ∧
          (spriteRow x0 (m.read (base + n))).getLsbD x = true := by
      rw [bne_iff_ne]
      constructor
      · intro hne
        by_contra hall
        refine hne (BitVec.eq_of_getLsbD_eq fun x hx => ?_)
        by_contra hx1
        simp at hx1
        exact hall ⟨x, hx, hx1.1, hx1.2⟩
      · rintro ⟨x, hx, h1, h2⟩ hz
        have := congrArg (·.getLsbD x) hz
        simp [h2] at this
        rw [pixel, this] at h1
        exact Bool.noConfusion h1
    simp only [drawRows, hrow, Bool.or_eq_true, ihn, hand]
    constructor
    · rintro (⟨r, hr, h⟩ | h)
      · exact ⟨r, by omega, h⟩
      · exact ⟨n, by omega, h⟩
    · rintro ⟨r, hr, h⟩
      by_cases e : r = n
      · subst e
        exact Or.inr h
      · exact Or.inl ⟨r, by omega, h⟩

/-- The drawn rows end at row 31. -/
theorem drawnRows_le (y0 n : Nat) (h : y0 < 32) : y0 + drawnRows y0 n ≤ 32 := by
  simp [drawnRows]
  omega

end Sys2Proof.Machine
end

