-- ==== Sys2Proof/Laws/Step.lean ====
section
/-! SUPPORT. Everything one step can do, said once (60_exceptions.md R206, R211, R220, R221; logs 6 to 9). -/

namespace Sys2Proof.Machine

/-- `d` is `s` once the host has left the inputs alone or driven them. -/
def Driven (s d : State) : Prop :=
  (s.drives = [] ∧ d = s) ∨
    ∃ k q t coming, s.drives = .drive k q t :: coming ∧ d = s.takeDrive k q t coming

/-- A cycle that answers a next state: the fetch raised MemoryFault, or an instruction ran, and the iteration ended
unless it raised a fatal error. -/
theorem runCycle_next {s t : State} (h : runCycle executeWord s = .next t) :
    (s.fetch = none ∧ t = s.raiseMemory s.pc) ∨
    ∃ w u, s.fetch = some w ∧ exec (decode w) s = .next u ∧
      t = if u.halted then u else u.present.tickStep := by
  unfold runCycle at h
  split at h
  · next w hw =>
    refine Or.inr ⟨w, ?_⟩
    unfold executeWord at h
    cases he : exec (decode w) s with
    | next u =>
      rw [he] at h
      exact ⟨u, hw, rfl, by simpa [endIteration] using h.symm⟩
    | fault f => rw [he] at h; simp [endIteration] at h
    | refused r => rw [he] at h; simp [endIteration] at h
  · next hw => exact Or.inl ⟨hw, by simpa using h.symm⟩

/-- An iteration that answers a next state once the inputs are driven. -/
theorem startIteration_next {s t : State} (h : startIteration executeWord s = .next t) :
    (s.halted = true ∧ s.err = .none ∧ t = s) ∨
    (s.halted = false ∧ s.quitIn = true ∧ t = s.quit) ∨
    (s.halted = false ∧ s.quitIn = false ∧ runCycle executeWord s.sampleKeys = .next t) := by
  unfold startIteration at h
  split at h
  · next hh =>
    refine Or.inl ⟨hh, ?_⟩
    unfold haltedOutcome latchedFault at h
    cases he : s.err <;> simp [he] at h ⊢
    exact h.symm
  · next hh =>
    split at h
    · next hq => exact Or.inr (Or.inl ⟨by simpa using hh, hq, by simpa using h.symm⟩)
    · next hq => exact Or.inr (Or.inr ⟨by simpa using hh, by simpa using hq, h⟩)

/-- A step that answers a next state: reset was taken, or the inputs were driven and the iteration ran. -/
theorem step_next {s t : State} (h : step s = .next t) :
    s.params.ok = true ∧
    ((∃ image coming, s.drives = .reset image :: coming ∧ t = s.takeReset image coming) ∨
      ∃ d, Driven s d ∧ startIteration executeWord d = .next t) := by
  unfold step iteration at h
  split at h
  · next hp =>
    refine ⟨hp, ?_⟩
    split at h
    · next hd => exact Or.inr ⟨s, Or.inl ⟨hd, rfl⟩, h⟩
    · next k q tk c hd => exact Or.inr ⟨_, Or.inr ⟨k, q, tk, c, hd, rfl⟩, h⟩
    · next im c hd => exact Or.inl ⟨im, c, hd, by simpa using h.symm⟩
  · simp at h

/-- With the inputs left alone, a step is the iteration. -/
theorem step_of_no_drive {s : State} (hp : s.params.ok = true) (hd : s.drives = []) :
    step s = startIteration executeWord s := by
  simp [step, iteration, hp, hd]

/-- With the inputs driven, a step is the iteration of the driven state. -/
theorem step_of_drive {s : State} (hp : s.params.ok = true) {k : BitVec 16} {q t : Bool}
    {coming : List HostEvent} (hd : s.drives = .drive k q t :: coming) :
    step s = startIteration executeWord (s.takeDrive k q t coming) := by
  simp [step, iteration, hp, hd]

/-- Driving the inputs touches the inputs alone. -/
theorem Driven.frame {s d : State} (h : Driven s d) :
    d = { s with keysIn := d.keysIn, quitIn := d.quitIn, tickIn := d.tickIn, drives := d.drives } := by
  rcases h with ⟨-, rfl⟩ | ⟨k, q, t, c, -, rfl⟩ <;> rfl

/-- A running machine whose inputs are left alone runs its cycle. -/
theorem startIteration_runs {s : State} (hh : s.halted = false) (hq : s.quitIn = false) :
    startIteration executeWord s = runCycle executeWord s.sampleKeys := by
  simp [startIteration, hh, hq]

/-- The fetched word, when PC is in range (20_memory.md R64). -/
theorem fetch_in_range {s : State} (h : s.pc.toNat ≤ 0xFFE) :
    s.fetch = some (wordOfBytes (s.mem.read s.pc.toNat) (s.mem.read (s.pc.toNat + 1))) := by
  have : inRange s.pc.toNat 2 = true := (inRange_iff _ _).mpr (by omega)
  simp [State.fetch, this]

/-- No word is fetched above 0xFFE (20_memory.md R64). -/
theorem fetch_out_of_range {s : State} (h : 0xFFE < s.pc.toNat) : s.fetch = none := by
  have : inRange s.pc.toNat 2 = false := (inRange_false _ _).mpr (by omega)
  simp [State.fetch, this]

end Sys2Proof.Machine
end

