-- ==== Sys2Proof/Tests/Slice0.lean ====
section
/-! SUPPORT. The model's own tests: the expected results are those of 95_test_vectors.md, named in each test's comment,
and one witness for each statement that has hypotheses. -/

namespace Sys2Proof.Tests

open Sys2Proof Sys2Proof.Machine Sys2Proof.Frame

-- one theorem is checked at a time: the kernel evaluations of all of them at once ask for too many threads
set_option Elab.async false

/-! ## Helpers -/

/-- The next state of an outcome, or `s` when it stopped. -/
def nextOr (s : State) : Host.Outcome State Fault Refusal → State
  | .next t => t
  | .fault _ => s
  | .refused _ => s

/-- The outcome is a next state. -/
def isNext : Host.Outcome State Fault Refusal → Bool
  | .next _ => true
  | .fault _ => false
  | .refused _ => false

/-- The outcome is this fault. -/
def isFault (f : Fault) : Host.Outcome State Fault Refusal → Bool
  | .next _ => false
  | .fault g => f == g
  | .refused _ => false

/-- The reset state with some registers set. -/
def start (regs : List (Nibble × Byte)) : State := regs.foldl (fun s p => s.setReg p.1 p.2) State.reset

/-- Bytes stored from an address upward. -/
def withBytes (s : State) (a : Nat) (bs : List Byte) : State := s.setMem (s.mem.writeBytes a bs)

/-- Pixels, as (column, row), turned on. -/
def withPixels (s : State) (on : List (Nat × Nat)) : State :=
  s.setFb (on.foldl (fun f p => f.setIfInBounds p.2 (fbRow f p.2 ||| (1#64 <<< p.1))) s.fb)

/-- The pixels that are on. -/
def lit (s : State) : List (Nat × Nat) :=
  (List.range 32).flatMap fun y => ((List.range 64).filter fun x => pixel s.fb x y).map fun x => (x, y)

/-- The state after one Cycle on a word (the vectors' single-instruction convention). -/
def cycle (w : Word) (s : State) : State := nextOr s (exec (decode w) s)

/-- The state after one whole iteration. -/
def stepped (s : State) : State := nextOr s (step s)

/-- The latch a fault leaves, with PC. -/
def latch (s : State) : Bool × BitVec 3 × Word × BitVec 17 × Word :=
  (s.halted, s.err.code, s.errPc, s.errAddr, s.pc)

theorem next_nextOr (s : State) (o : Host.Outcome State Fault Refusal) (h : isNext o = true) :
    o = .next (nextOr s o) := by
  cases o with
  | next t => rfl
  | fault f => cases h
  | refused r => cases h

theorem step_stepped (s : State) (h : isNext (step s) = true) : step s = .next (stepped s) :=
  next_nextOr s _ h

theorem exec_cycle (w : Word) (s : State) (h : isNext (exec (decode w) s) = true) :
    exec (decode w) s = .next (cycle w s) := next_nextOr s _ h

/-! ## WellFormed: a term that stands for no word is refused -/

/-- 0x00E0 is CLS, so no Unknown carries it (R97). -/
theorem test_wf_refuses_unknown_cls : (Instr.unknown 0x00E0).wellFormed = false := by decide
/-- 0x812E is SHL, so no Unknown carries it (R97). -/
theorem test_wf_refuses_unknown_shl : (Instr.unknown 0x812E).wellFormed = false := by decide
/-- 0xF075 is no row's word (V-DEC-24). -/
theorem test_wf_takes_unknown : (Instr.unknown 0xF075).wellFormed = true := by decide

/-! ## Decode: every constructor, by a word written out from its encoding (30_encoding.md R91, R96; V-DEC-1 to 24) -/

theorem test_decode_screen_flow :
    decode 0b0000000011100000 = .cls ∧ decode 0b0000000011101110 = .ret ∧
    decode 0b0001111111111111 = .jp 0xFFF ∧ decode 0b0010101010111100 = .call 0xABC ∧
    decode 0b1011000000000010 = .jpV0 0x002 ∧ decode 0b1101101010111111 = .drw 10 11 15 := by decide

theorem test_decode_skips :
    decode 0b0011111100000000 = .seImm 15 0x00 ∧ decode 0b0100101001111111 = .sneImm 10 0x7F ∧
    decode 0b0101101010110000 = .seReg 10 11 ∧ decode 0b1001111111100000 = .sneReg 15 14 ∧
    decode 0b1110111110011110 = .skp 15 ∧ decode 0b1110111110100001 = .sknp 15 := by decide

theorem test_decode_loads :
    decode 0b0110110011111111 = .ldImm 12 0xFF ∧ decode 0b0111000000000001 = .addImm 0 0x01 ∧
    decode 0b1100001100001111 = .rnd 3 0x0F ∧ decode 0b1010111111111111 = .ldI 0xFFF := by decide

theorem test_decode_alu :
    decode 0b1000000100100000 = .mov 1 2 ∧ decode 0b1000000100100001 = .or 1 2 ∧
    decode 0b1000000100100010 = .and 1 2 ∧ decode 0b1000000100100011 = .xor 1 2 ∧
    decode 0b1000000100100100 = .add 1 2 ∧ decode 0b1000000100100101 = .sub 1 2 ∧
    decode 0b1000000100100110 = .shr 1 2 ∧ decode 0b1000000100100111 = .subn 1 2 ∧
    decode 0b1000000100101110 = .shl 1 2 := by decide

theorem test_decode_misc :
    decode 0b1111000000000111 = .getDt 0 ∧ decode 0b1111000100001010 = .waitKey 1 ∧
    decode 0b1111001000010101 = .setDt 2 ∧ decode 0b1111001100011000 = .setSt 3 ∧
    decode 0b1111010000011110 = .addI 4 ∧ decode 0b1111010100101001 = .font 5 ∧
    decode 0b1111011000110011 = .bcd 6 ∧ decode 0b1111011101010101 = .stm 7 ∧
    decode 0b1111100001100101 = .ldm 8 := by decide

/-- V-DEC-3, 9, 13, 15, 22, 24. -/
theorem test_decode_unknown :
    ([0x00E1, 0x00EF, 0x00FE, 0x0000, 0x0123, 0x0FFF, 0x01E0, 0x00C4, 0x5AB1, 0x5ABF, 0x5008] : List Word).all
      (fun w => decode w == .unknown w) = true ∧
    ([0x8128, 0x8129, 0x812A, 0x812B, 0x812C, 0x812D, 0x812F, 0x9FE1, 0x900F] : List Word).all
      (fun w => decode w == .unknown w) = true ∧
    ([0xE000, 0xE09F, 0xE0A0, 0xE19D, 0xEFFF, 0xF000, 0xF006, 0xF008, 0xF01F, 0xF030, 0xF056, 0xF064] : List Word).all
      (fun w => decode w == .unknown w) = true ∧
    ([0xF066, 0xF075, 0xF085, 0xFFFF] : List Word).all (fun w => decode w == .unknown w) = true := by decide

/-- The opcode table's numbering: bit 0 is the least significant bit of the word. -/
theorem test_decodeTableWord :
    decodeTableWord 16 0xD12F = some (.drw 1 2 15) ∧ decodeTableWord 16 0x2ABC = some (.call 0xABC) := by decide

/-- One byte is no instruction (R90). -/
theorem test_decode_truncated : decodeBytes [0x12] = .error .truncated := by rfl

/-- V-MEM-1: big-endian. -/
theorem test_fetch_big_endian : (withBytes State.reset 0x200 [0x12, 0x34]).fetch = some 0x1234 := by decide +kernel

/-- `withFetchWord` puts the word where the next step fetches: V-ALU-1. -/
theorem test_withFetchWord : (stepped (State.reset.withFetchWord 16 0x6A07)).reg 10 = 0x07 := by decide +kernel

/-! ## Screen (2.2) -/

/-- V-CLS-1. -/
theorem test_cls :
    (fun t => (lit t, t.reg 15, t.pc)) (cycle 0x00E0 (withPixels (start [(15, 1)]) [(5, 3), (63, 31)])) =
      ([], 1, 0x202) := by decide +kernel

/-- V-DRW-2: one pixel goes off, one on, one stands. -/
theorem test_drw_collision :
    (fun t => (lit t, t.reg 15, t.pc))
      (cycle 0xD011 (withPixels (withBytes (start []) 0x300 [0xA0] |>.setIndex 0x300) [(0, 0), (1, 0)])) =
      ([(1, 0), (2, 0)], 1, 0x202) := by decide +kernel

/-- V-DRW-3, V-DRW-4 in one: the start wraps, both edges clip, row 1 would be row 32. -/
theorem test_drw_clips :
    (fun t => (lit t, t.reg 15))
      (cycle 0xD012 (withBytes (start [(0, 63), (1, 5)]) 0x300 [0xFF, 0x7F] |>.setIndex 0x300)) = ([(63, 5)], 0) ∧
    (fun t => (lit t, t.reg 15))
      (cycle 0xD013 (withBytes (start [(1, 31)]) 0x300 [0x80, 0x80, 0x80] |>.setIndex 0x300)) = ([(0, 31)], 0) := by
  decide +kernel

/-- V-DRW-9 and V-DRW-10: a row out of range faults before any effect; a clipped row is not read. -/
theorem test_drw_bounds :
    (fun t => (latch t, lit t))
      (cycle 0xD012 (withBytes (start []) 0xFFF [0x80] |>.setIndex 0xFFF)) =
      ((true, 1, 0x200, 0x1000, 0x200), []) ∧
    lit (cycle 0xD012 (withBytes (start [(1, 31)]) 0xFFF [0x80] |>.setIndex 0xFFF)) = [(0, 31)] := by decide +kernel

/-- V-DRW-8 and V-DRW-12: VF is read before it is written; no row is read with N = 0. -/
theorem test_drw_flag_order :
    (fun t => (lit t, t.reg 15))
      (cycle 0xDF11 (withBytes (start [(15, 10), (1, 2)]) 0x300 [0x80] |>.setIndex 0x300)) = ([(10, 2)], 0) ∧
    (fun t => (t.reg 15, t.pc, t.halted)) (cycle 0xD010 ((start [(15, 1)]).setIndex 0x1000)) =
      (0, 0x202, false) := by decide +kernel

/-- V-FONT-DRAW. -/
theorem test_drw_glyph :
    lit (cycle 0xD015 ((start []).setIndex 0x023)) =
      [(0, 0), (1, 0), (2, 0), (3, 0), (3, 1), (2, 2), (1, 3), (1, 4)] := by decide +kernel

/-! ## Flow (2.3) -/

/-- V-FLOW-1. -/
theorem test_jp : (cycle 0x1ABC (start [])).pc = 0xABC := by decide +kernel

/-- V-FLOW-4. -/
theorem test_call :
    (fun t => (t.pc, t.sp, t.stack[0]?)) (cycle 0x220A ((start []).setPc 0x204)) = (0x20A, 1, some 0x204) := by
  decide +kernel

/-- V-FLOW-6. -/
theorem test_call_overflow :
    (fun t => (latch t, t.sp)) (cycle 0x2300 { (start []).setPc 0x2F0 with sp := 16 }) =
      ((true, 2, 0x2F0, 0x2F0, 0x2F0), 16) := by decide +kernel

/-- V-FLOW-7. -/
theorem test_ret :
    (fun t => (t.pc, t.sp)) (cycle 0x00EE (((start []).push 0x204).setPc 0x20C)) = (0x206, 0) := by decide +kernel

/-- V-FLOW-8. -/
theorem test_ret_underflow :
    latch (cycle 0x00EE ((start []).setPc 0x20C)) = (true, 3, 0x20C, 0x20C, 0x20C) := by decide +kernel

/-- V-FLOW-10: no wrap to 12 bits. -/
theorem test_jpV0 : (cycle 0xBFFF (start [(0, 0xFF)])).pc = 0x10FE := by decide +kernel

/-! ## Skips (2.4) -/

/-- V-SKIP-1, V-SKIP-2. -/
theorem test_seImm :
    (cycle 0x3100 ((start []).setPc 0x208)).pc = 0x20C ∧
    (cycle 0x3100 ((start [(1, 4)]).setPc 0x208)).pc = 0x20A := by decide +kernel

/-- V-SKIP-3, V-SKIP-4. -/
theorem test_sneImm :
    (cycle 0x4211 ((start [(2, 0x10)]).setPc 0x300)).pc = 0x304 ∧
    (cycle 0x4210 ((start [(2, 0x10)]).setPc 0x300)).pc = 0x302 := by decide +kernel

/-- V-SKIP-5, V-SKIP-6. -/
theorem test_seReg :
    (cycle 0x5340 ((start [(3, 0x7F), (4, 0x7F)]).setPc 0x250)).pc = 0x254 ∧
    (cycle 0x5340 ((start [(3, 1), (4, 2)]).setPc 0x250)).pc = 0x252 := by decide +kernel

/-- V-SKIP-7, V-SKIP-8. -/
theorem test_sneReg :
    (cycle 0x9340 ((start [(3, 1), (4, 2)]).setPc 0x250)).pc = 0x254 ∧
    (cycle 0x9340 ((start [(3, 1), (4, 1)]).setPc 0x250)).pc = 0x252 := by decide +kernel

/-! ## ALU (2.5) -/

/-- V-ALU-1. -/
theorem test_ldImm : (fun t => (t.reg 10, t.pc)) (cycle 0x6A07 (start [])) = (0x07, 0x202) := by decide +kernel

/-- V-ALU-3. -/
theorem test_addImm :
    (fun t => (t.reg 1, t.reg 15)) (cycle 0x7102 (start [(1, 0xFF), (15, 0x09)])) = (0x01, 0x09) := by decide +kernel

/-- V-ALU-5. -/
theorem test_mov : (fun t => (t.reg 14, t.reg 3)) (cycle 0x8E30 (start [(3, 0x2A)])) = (0x2A, 0x2A) := by
  decide +kernel

/-- V-ALU-6. -/
theorem test_or :
    (fun t => (t.reg 0, t.reg 15)) (cycle 0x8011 (start [(0, 0xF0), (1, 0x0F), (15, 1)])) = (0xFF, 1) := by
  decide +kernel

/-- V-ALU-7. -/
theorem test_and : (cycle 0x8012 (start [(0, 0xF0), (1, 0x3C)])).reg 0 = 0x30 := by decide +kernel

/-- V-ALU-8, V-ALU-9. -/
theorem test_xor :
    (cycle 0x8013 (start [(0, 0xF0), (1, 0x3C)])).reg 0 = 0xCC ∧
    (fun t => (t.reg 3, t.reg 15)) (cycle 0x8333 (start [(3, 0x5A), (15, 7)])) = (0x00, 7) := by decide +kernel

/-- V-ALU-10, V-ALU-11. -/
theorem test_add :
    (fun t => (t.reg 0, t.reg 15)) (cycle 0x8014 (start [(0, 0xFF), (1, 0xFF)])) = (0xFE, 1) ∧
    (fun t => (t.reg 0, t.reg 15)) (cycle 0x8014 (start [(0, 0x7F), (1, 0x80)])) = (0xFF, 0) := by decide +kernel

/-- V-ALU-13, V-ALU-14: VF as destination and as operand. -/
theorem test_add_vf :
    (cycle 0x8F14 (start [(15, 0xFF), (1, 0x01)])).reg 15 = 1 ∧
    (fun t => (t.reg 0, t.reg 15)) (cycle 0x80F4 (start [(0, 1), (15, 1)])) = (0x02, 0) := by decide +kernel

/-- V-ALU-15, V-ALU-16. -/
theorem test_sub :
    (fun t => (t.reg 0, t.reg 15)) (cycle 0x8015 (start [(0, 5), (1, 5)])) = (0, 1) ∧
    (fun t => (t.reg 0, t.reg 15)) (cycle 0x8015 (start [(1, 0xFF)])) = (1, 0) := by decide +kernel

/-- V-ALU-17, V-ALU-18. -/
theorem test_sub_vf :
    (cycle 0x8F15 (start [(15, 0x10), (1, 0x20)])).reg 15 = 0 ∧ (cycle 0x8FF5 (start [(15, 0x33)])).reg 15 = 1 := by
  decide +kernel

/-- V-ALU-19, V-ALU-21. -/
theorem test_subn :
    (fun t => (t.reg 0, t.reg 15)) (cycle 0x8017 (start [(0, 2), (1, 1)])) = (0xFF, 0) ∧
    (fun t => (t.reg 0, t.reg 15)) (cycle 0x8017 (start [(0, 1), (1, 2)])) = (1, 1) := by decide +kernel

/-- V-ALU-22, V-ALU-26. -/
theorem test_shr :
    (fun t => (t.reg 1, t.reg 2, t.reg 15)) (cycle 0x8126 (start [(1, 0xAA), (2, 0x05)])) = (0x02, 0x05, 1) ∧
    (cycle 0x8FF6 (start [(15, 2)])).reg 15 = 0 := by decide +kernel

/-- V-ALU-27, V-ALU-29. -/
theorem test_shl :
    (fun t => (t.reg 1, t.reg 2, t.reg 15)) (cycle 0x812E (start [(1, 0xAA), (2, 0x81)])) = (0x02, 0x81, 1) ∧
    (cycle 0x8F1E (start [(1, 0xC0)])).reg 15 = 1 := by decide +kernel

/-- V-ALU-30, V-ALU-31. -/
theorem test_rnd :
    (fun t => (t.reg 3, t.randPos, t.randIn)) (cycle 0xC30F { start [] with randIn := [0xB7, 0x01] }) =
      (0x07, 1, [0x01]) ∧
    (fun t => (t.reg 3, t.randPos)) (cycle 0xC300 { start [(3, 0x11)] with randIn := [0xB7] }) = (0x00, 1) := by
  decide +kernel

/-! ## Index and memory (2.6) -/

/-- V-IDX-1. -/
theorem test_ldI : (cycle 0xAFFF (start [])).index = 0x0FFF := by decide +kernel

/-- V-IDX-3, V-IDX-4. -/
theorem test_addI :
    (cycle 0xF21E ((start [(2, 1)]).setIndex 0x0FFF)).index = 0x1000 ∧
    (fun t => (t.index, t.reg 15)) (cycle 0xF21E ((start [(2, 1), (15, 5)]).setIndex 0xFFFF)) = (0, 5) := by
  decide +kernel

/-- V-IDX-8, V-IDX-9. -/
theorem test_font :
    (cycle 0xFA29 (start [(10, 0x0F)])).index = 0x004B ∧ (cycle 0xFA29 (start [(10, 0x1A)])).index = 0x0032 := by
  decide +kernel

/-- V-IDX-11, V-IDX-13. -/
theorem test_bcd :
    (fun t => (t.mem.read 0x300, t.mem.read 0x301, t.mem.read 0x302))
      (cycle 0xF033 ((start [(0, 254)]).setIndex 0x300)) = (2, 5, 4) ∧
    (fun t => (t.mem.read 0xFFD, t.mem.read 0xFFE, t.mem.read 0xFFF))
      (cycle 0xF033 ((start [(0, 255)]).setIndex 0xFFD)) = (2, 5, 5) := by decide +kernel

/-- V-IDX-14, V-IDX-15. -/
theorem test_bcd_fault :
    (fun t => (latch t, t.mem)) (cycle 0xF033 ((start [(0, 255)]).setIndex 0xFFE)) =
      ((true, 1, 0x200, 0x1000, 0x200), []) ∧
    latch (cycle 0xF033 ((start [(0, 255)]).setIndex 0x1234)) = (true, 1, 0x200, 0x1234, 0x200) := by decide +kernel

/-- V-IDX-16, V-IDX-19: V2 is not stored; the font region is writable. -/
theorem test_stm :
    (fun t => (t.mem, t.index)) (cycle 0xF155 ((start [(0, 0x6A), (1, 0x55), (2, 0x77)]).setIndex 0x20A)) =
      ([(0x20A, 0x6A), (0x20B, 0x55)], 0x20A) ∧
    (cycle 0xF055 (start [(0, 0xAB)])).mem.read 0 = 0xAB := by decide +kernel

/-- V-IDX-18. -/
theorem test_stm_fault :
    (fun t => (latch t, t.mem)) (cycle 0xFF55 ((start [(0, 0x10)]).setIndex 0xFF1)) =
      ((true, 1, 0x200, 0x1000, 0x200), []) := by decide +kernel

/-- V-IDX-20, V-IDX-23. -/
theorem test_ldm :
    (fun t => (t.reg 0, t.reg 1, t.reg 2, t.reg 3, t.index))
      (cycle 0xF265 (withBytes ((start [(3, 0x33)]).setIndex 0x300) 0x300 [2, 5, 4, 9])) =
      (2, 5, 4, 0x33, 0x300) ∧
    (cycle 0xFF65 (start [])).v.toList =
      [0xF0, 0x90, 0x90, 0x90, 0xF0, 0x20, 0x60, 0x20, 0x20, 0x70, 0xF0, 0x10, 0xF0, 0x80, 0xF0, 0xF0] := by
  decide +kernel

/-- V-IDX-22. -/
theorem test_ldm_fault :
    (fun t => (latch t, t.reg 0, t.reg 1)) (cycle 0xF165 ((start [(0, 1), (1, 2)]).setIndex 0xFFF)) =
      ((true, 1, 0x200, 0x1000, 0x200), 1, 2) := by decide +kernel

/-! ## Keys, timers, Unknown (2.7, 2.8) -/

/-- V-KEY-1, V-KEY-3. -/
theorem test_skp :
    (cycle 0xE49E { start [(4, 5)] with keys := 0x0020 }).pc = 0x204 ∧
    (cycle 0xE49E { start [(4, 0x15)] with keys := 0xFFFF }).pc = 0x202 := by decide +kernel

/-- V-KEY-4, V-KEY-6. -/
theorem test_sknp :
    (cycle 0xE4A1 (start [(4, 5)])).pc = 0x204 ∧ (cycle 0xE4A1 (start [(4, 0x20)])).pc = 0x202 := by decide +kernel

/-- V-KEY-7, V-KEY-8. -/
theorem test_waitKey :
    (fun t => (t.pc, t.reg 2, t.waiting)) (cycle 0xF20A (start [(2, 0x77)])) = (0x200, 0x77, true) ∧
    (fun t => (t.pc, t.reg 2, t.waiting)) (cycle 0xF20A { start [(2, 0x77)] with keys := 0x0220 }) =
      (0x202, 0x05, false) := by decide +kernel

/-- V-TMR-1. -/
theorem test_getDt : (fun t => (t.reg 1, t.dt)) (cycle 0xF107 { start [] with dt := 0x2C }) = (0x2C, 0x2C) := by
  decide +kernel

/-- V-TMR-2. -/
theorem test_setDt : (cycle 0xF015 (start [(0, 3)])).dt = 3 := by decide +kernel

/-- V-TMR-3, V-TMR-4: `tone` is presented from the new ST. -/
theorem test_setSt :
    (fun t => (t.st, t.tone)) (stepped ((start [(0, 2)]).withFetchWord 16 0xF018)) = (2, true) ∧
    (fun t => (t.st, t.tone)) (stepped ({ start [] with st := 9 }.withFetchWord 16 0xF018)) = (0, false) := by
  decide +kernel

/-- V-UNK-1, V-UNK-2. -/
theorem test_unknown :
    (fun t => (t.pc, t.unknownReport, t.halted)) (cycle 0x0000 ((start []).setPc 0x20E)) =
      (0x210, some ⟨0x0000, 0x20E⟩, false) ∧
    (fun t => (t.pc, t.unknownReport)) (cycle 0x5341 (start [(3, 1), (4, 1)])) =
      (0x202, some ⟨0x5341, 0x200⟩) := by decide +kernel

/-! ## The iteration (2.7, 2.9) -/

/-- V-TICK-1, V-TICK-2: `tone` is presented before the tick step. -/
theorem test_tick :
    (fun t => (t.tickCtr, t.dt, t.st, t.tone))
      (stepped ({ start [] with tickCtr := 6, dt := 5, st := 1 }.withFetchWord 16 0x6000)) = (7, 5, 1, true) ∧
    (fun t => (t.tickCtr, t.dt, t.st, t.tone))
      (stepped ({ start [] with tickCtr := 7, dt := 5, st := 1 }.withFetchWord 16 0x6000)) = (0, 4, 0, true) := by
  decide +kernel

/-- V-TICK-3, V-TICK-4. -/
theorem test_tick_edges :
    (fun t => (t.tickCtr, t.dt, t.st)) (stepped ({ start [] with tickCtr := 7 }.withFetchWord 16 0x6000)) = (0, 0, 0) ∧
    (fun t => (t.tickCtr, t.dt)) (stepped ({ start [(0, 3)] with tickCtr := 7 }.withFetchWord 16 0xF015)) =
      (0, 2) := by decide +kernel

/-- V-TICK-5: a faulting iteration runs no tick step. -/
theorem test_tick_fault :
    (fun t => (t.err, t.tickCtr, t.dt)) (stepped ({ start [] with tickCtr := 7, dt := 5 }.withFetchWord 16 0x00EE)) =
      (.stackUnderflow, 7, 5) := by decide +kernel

/-- V-FAULT-1, V-FAULT-3. -/
theorem test_fetch_fault :
    latch (stepped ((start []).setPc 0xFFF)) = (true, 1, 0xFFF, 0x1000, 0xFFF) ∧
    latch (stepped ((start []).setPc 0x10FE)) = (true, 1, 0x10FE, 0x10FE, 0x10FE) := by decide +kernel

/-- V-FAULT-4 and V-MEM-2: the last fetchable address, and an odd one. -/
theorem test_fetch_edges :
    (fun t => (t.reg 0, t.pc)) (stepped (((start []).setPc 0xFFE).withFetchWord 16 0x6001)) = (1, 0x1000) ∧
    (fun t => (t.reg 10, t.pc)) (stepped (((start []).setPc 0x301).withFetchWord 16 0x6A07)) = (0x07, 0x303) := by
  decide +kernel

/-- R211: a machine that a fault halted stops with it. -/
theorem test_halted_fault :
    isFault (.stackUnderflow 0x200) (step (stepped ((start []).withFetchWord 16 0x00EE))) = true := by decide +kernel

/-- V-QUIT-2. -/
theorem test_quit :
    (fun t => (t.halted, t.err, t.pc, t.tickCtr)) (stepped { start [] with quitIn := true }) =
      (true, .none, 0x200, 0) := by decide +kernel

/-- A halted machine with state in it, and the host about to reset it (V-RST-6). -/
def beforeReset : State :=
  { withPixels (start [(5, 9)]) [(1, 1)] with
    halted := true, err := .stackUnderflow, drives := [.reset [0x12, 0x00]] }

/-- V-RST-1, V-RST-6: reset from a faulted state. -/
theorem test_reset :
    latch (stepped beforeReset) = (false, 0, 0, 0, 0x200) ∧
    (fun t => (t.reg 5, t.mem, lit t)) (stepped beforeReset) = (0, [(0x200, 0x12)], []) := by decide +kernel

/-- The key levels the host drives before an iteration are those WAIT_KEY sees in it (V-KEY-9). -/
theorem test_drive_keys :
    (fun t => (t.reg 2, t.pc, t.keys)) (stepped { (start []).withFetchWord 16 0xF20A with
      drives := [.drive 0x8000 false false] }) = (0x0F, 0x202, 0x8000) := by decide +kernel

/-- R40: pixel (x, y) is bit y * 64 + x of `fb_out`. -/
theorem test_fbOut :
    (fun b : BitVec 2048 => (b.getLsbD 2047, b.getLsbD 197, b.getLsbD 323)) (withPixels (start []) [(5, 3), (63, 31)]).fbOut =
      (true, true, false) := by decide +kernel

/-- V-RST-4. -/
theorem test_image_too_large :
    latch (State.resetWith Config.reference (List.replicate 3585 0x12)) = (true, 4, 0, 0, 0x200) := by decide +kernel

/-- 20_memory.md R66: the font bytes. -/
theorem test_font_bytes :
    State.reset.mem.read 0 = 0xF0 ∧ State.reset.mem.read 0x23 = 0xF0 ∧ State.reset.mem.read 0x4F = 0x80 ∧
    State.reset.mem.read 0x50 = 0 := by decide +kernel

/-! ## Witnesses: every statement with hypotheses has states and operands that meet them, for each clause, at the edges -/

theorem witness_DecodeUndoesEncode :
    (Instr.unknown 0xFFFF).wellFormed = true ∧ (Instr.drw 15 15 15).wellFormed = true := by decide

theorem witness_DecodeFollowsOpcodeMap :
    rowOf (decode 0xEFA1) = some ⟨0xF0FF, 0xE0A1⟩ ∧
    opcodeRows.all (fun r => 0x00E1 &&& r.mask != r.value) = true := by decide

theorem witness_FetchIsBigEndian :
    ((start []).setPc 0xFFE).pc.toNat ≤ 0xFFE ∧ 0xFFE < ((start []).setPc 0xFFF).pc.toNat := by decide +kernel

/-- CLS at the last fetchable address. -/
def atEdge : State := ((start []).setPc 0xFFE).withFetchWord 16 0x00E0

/-- `s` with the host about to drive the levels. -/
def drivenNext (s : State) (k : BitVec 16) : State := { s with drives := [.drive k false true] }

/-- A machine that runs, with the inputs left alone. -/
theorem starts_still (s : State)
    (h : (s.params.ok && !s.halted && s.drives.isEmpty && !s.quitIn) = true) : Starts s s := by
  simp only [Bool.and_eq_true, Bool.not_eq_true', List.isEmpty_iff] at h
  exact ⟨h.1.1.1, h.1.1.2, Or.inl ⟨h.1.2, h.2, rfl⟩⟩

/-- A machine that runs, with the inputs driven. -/
theorem starts_driven (s : State) (k : BitVec 16) (h : (s.params.ok && !s.halted) = true) :
    Starts (drivenNext s k) (s.takeDrive k false true []) := by
  simp only [Bool.and_eq_true, Bool.not_eq_true'] at h
  exact ⟨h.1, h.2, Or.inr ⟨k, true, [], rfl, rfl⟩⟩

theorem witness_StepRunsDecodedInstruction :
    Instr.cls.wellFormed = true ∧ atEdge.pc.toNat ≤ 0xFFE ∧
    [atEdge.mem.read atEdge.pc.toNat, atEdge.mem.read (atEdge.pc.toNat + 1)] = encodeBytes .cls ∧
    Starts atEdge atEdge ∧ exec .cls (sampled atEdge) = .next (cycle 0x00E0 (sampled atEdge)) ∧
    (drivenNext atEdge 0x8000).mem = atEdge.mem ∧ (drivenNext atEdge 0x8000).pc = atEdge.pc ∧
    Starts (drivenNext atEdge 0x8000) (atEdge.takeDrive 0x8000 false true []) :=
  ⟨rfl, by decide +kernel, by decide +kernel, starts_still _ (by decide +kernel), rfl, rfl, rfl,
    starts_driven _ _ (by decide +kernel)⟩

theorem witness_FetchOutOfRangeRaises :
    (fun s : State => Starts s s ∧ 0xFFE < s.pc.toNat ∧ Starts (drivenNext s 1) (s.takeDrive 1 false true []))
      ((start []).setPc 0xFFF) :=
  ⟨starts_still _ (by decide +kernel), by decide +kernel, starts_driven _ _ (by decide +kernel)⟩

theorem witness_QuitHaltsBeforeTheCycle :
    (∃ s : State, s.params.ok = true ∧ s.halted = false ∧ s.drives = [] ∧ s.quitIn = true) ∧
    ∃ s : State, s.params.ok = true ∧ s.halted = false ∧ s.drives = .drive 1 true false :: [] :=
  ⟨⟨{ start [] with quitIn := true }, by decide +kernel, rfl, rfl, rfl⟩,
    ⟨{ start [] with drives := [.drive 1 true false] }, by decide +kernel, rfl, rfl⟩⟩

/-- A halted machine with a cause latched. -/
def haltedBy (c : Cause) : State := { start [] with halted := true, err := c }

theorem witness_HaltedRunsNoCycle (c : Cause) :
    (haltedBy c).params.ok = true ∧ (haltedBy c).halted = true ∧
    (∀ image coming, (haltedBy c).drives ≠ .reset image :: coming) ∧ (haltedBy c).err = c :=
  ⟨by cases c <;> decide +kernel, rfl, fun _ _ h => List.cons_ne_nil _ _ h.symm, rfl⟩

theorem witness_OnlyResetLeavesHalted :
    beforeReset.halted = true ∧ step beforeReset = .next (stepped beforeReset) ∧
    (stepped beforeReset).halted = false :=
  ⟨rfl, step_stepped _ (by decide +kernel), by decide +kernel⟩

theorem witness_StepAlwaysAnswersNext :
    (haltedBy .none).params.ok = true ∧ ((haltedBy .none).halted = true → (haltedBy .none).err = .none) ∧
    (start []).params.ok = true ∧ ((start []).halted = true → (start []).err = .none) := by decide +kernel

/-- The first and the last pixel. -/
theorem witness_FbOutCarriesFramebuffer : (0 ≤ 63 ∧ 0 ≤ 31) ∧ 63 ≤ 63 ∧ 31 ≤ 31 := by decide

theorem witness_ResetReinitialises :
    (List.replicate 3584 (0 : Byte)).length ≤ 3584 ∧ beforeReset.params.ok = true ∧
    beforeReset.drives = .reset [0x12, 0x00] :: [] := by decide +kernel

theorem witness_LoadedMemoryContents :
    (List.replicate 3584 (0x5A : Byte)).length ≤ 3584 ∧ (79 < 80) ∧
    3583 < (List.replicate 3584 (0x5A : Byte)).length ∧ 80 ≤ 0x1FF ∧ 0x1FF < 0x200 ∧ 80 ≤ 0x202 ∧
    0x200 + ([0x12, 0x00] : List Byte).length ≤ 0x202 := by
  rw [List.length_replicate]
  decide

theorem witness_ImageTooLargeHaltsAtLoad :
    3584 < (List.replicate 3585 (0 : Byte)).length ∧ Config.reference.ok = true :=
  ⟨by rw [List.length_replicate]; decide, by decide⟩

/-- The reset state of a machine whose timers the tick input fires (R215). -/
def externalTick (t : Bool) : State :=
  { State.resetWith { Config.reference with tickSource := .external } [] with tickIn := t }

theorem witness_TickStepDividesIterations :
    ((start []).params.tickSource = .divider ∧ (start []).tickCtr + 1 < (start []).params.tickThreshold) ∧
    (∃ s : State, s.params.tickSource = .divider ∧ s.tickCtr = 7 ∧ s.params.tickThreshold ≤ s.tickCtr + 1) ∧
    ((externalTick true).params.tickSource = .external ∧ (externalTick true).tickIn = true) ∧
    (externalTick false).params.tickSource = .external ∧ (externalTick false).tickIn = false :=
  ⟨by decide +kernel, ⟨{ start [] with tickCtr := 7 }, by decide +kernel⟩, ⟨rfl, rfl⟩, rfl, rfl⟩

/-- V-TICK-6: the threshold is 1. -/
def fastTick : State :=
  { State.resetWith { Config.reference with tickThreshold := 1 } [] with dt := 2 }

theorem fetch_fastTick : fastTick.fetch = some 0x0000 := by decide +kernel

/-- An Unknown word writes no timer. -/
theorem quiet_fastTick (w : Nibble → Instr) (h : ∀ x, decode 0x0000 ≠ w x) :
    QuietRun w 1 fastTick (stepped fastTick) :=
  ⟨stepped fastTick,
    ⟨step_stepped _ (by decide +kernel), rfl, by decide +kernel, fun _ _ h => List.cons_ne_nil _ _ h.symm,
      fun word hw => by
        rw [fetch_fastTick] at hw
        cases hw
        exact h⟩, rfl⟩

/-- An iteration that writes DT and not ST. -/
def dtWriter : State := (start [(0, 3)]).withFetchWord 16 0xF015

/-- Both timers' clauses, and the clause of ST in a run that writes DT. -/
theorem witness_TimersFallOncePerThreshold :
    fastTick.params.tickSource = .divider ∧ fastTick.tickCtr = 0 ∧
    QuietRun .setDt 1 fastTick (stepped fastTick) ∧ QuietRun .setSt 1 fastTick (stepped fastTick) ∧
    dtWriter.params.tickSource = .divider ∧ dtWriter.tickCtr = 0 ∧
    QuietRun .setSt 1 dtWriter (stepped dtWriter) := by
  have hf : dtWriter.fetch = some 0xF015 := by decide +kernel
  have hd : dtWriter.drives.isEmpty = true := by decide +kernel
  refine ⟨rfl, rfl, quiet_fastTick _ (by decide), quiet_fastTick _ (by decide), by decide +kernel, by decide +kernel,
    stepped dtWriter, ⟨step_stepped _ (by decide +kernel), by decide +kernel, by decide +kernel,
      fun _ _ h => ?_, fun word hw => ?_⟩, rfl⟩
  · rw [h] at hd
    cases hd
  · rw [hf] at hw
    cases hw
    decide

/-- A word at PC of a running machine with the given keys. -/
def holding (w : Nat) (k : BitVec 16) : State := { (start []).withFetchWord 16 w with keysIn := k }

/-- An Unknown word, a WAIT_KEY with and without a key, and an ADD. -/
theorem witness_IterationPresentsOutputs :
    ([(0xF075, 0), (0xF20A, 0), (0xF20A, 0x8000), (0x8014, 1)] : List (Nat × BitVec 16)).all (fun p =>
      (holding p.1 p.2).fetch == some (BitVec.ofNat 16 p.1) && isNext (step (holding p.1 p.2)) &&
      !(stepped (holding p.1 p.2)).halted) = true ∧
    Starts (holding 0xF075 0) (holding 0xF075 0) ∧ Starts (holding 0xF20A 0) (holding 0xF20A 0) ∧
    Starts (holding 0xF20A 0x8000) (holding 0xF20A 0x8000) ∧ Starts (holding 0x8014 1) (holding 0x8014 1) :=
  ⟨by decide +kernel, starts_still _ (by decide +kernel), starts_still _ (by decide +kernel),
    starts_still _ (by decide +kernel), starts_still _ (by decide +kernel)⟩

/-- The same with the levels driven in that iteration. -/
theorem witness_IterationPresentsOutputs_driven :
    (fun s : State => Starts (drivenNext s 0x8000) (s.takeDrive 0x8000 false true []) ∧
      (drivenNext s 0x8000).fetch = some 0xF20A ∧
      step (drivenNext s 0x8000) = .next (stepped (drivenNext s 0x8000)) ∧
      (stepped (drivenNext s 0x8000)).halted = false) (holding 0xF20A 0) :=
  ⟨starts_driven _ _ (by decide +kernel), by decide +kernel, step_stepped _ (by decide +kernel), by decide +kernel⟩

theorem reset_inv : State.reset.Inv := by
  refine ⟨?_, ?_, ?_, ?_, ?_, ?_⟩ <;> decide +kernel

theorem witness_StepKeepsInv :
    State.reset.Inv ∧ step State.reset = .next (stepped State.reset) :=
  ⟨reset_inv, step_stepped _ (by decide +kernel)⟩

theorem witness_ResetHasInv : Config.reference.ok = true := by decide

theorem witness_EqualReadsEqualMemory :
    Memory.wf [(0, 0x01), (0xFFF, 0xFF)] = true ∧
    ∀ a, a < 0x1000 → Memory.read [(0, 0x01), (0xFFF, 0xFF)] a = Memory.read [(0, 0x01), (0xFFF, 0xFF)] a :=
  ⟨by decide +kernel, fun _ _ => rfl⟩

/-- The boundaries of each error: the first value that raises it and the last that does not. -/
theorem witness_FatalErrorsArePrecise :
    errorOf (start []) .ret = some (.stackUnderflow, 0x200) ∧
    errorOf ((start []).push 0x200) .ret = none ∧
    errorOf { start [] with sp := 16 } (.call 0x300) = some (.stackOverflow, 0x200) ∧
    errorOf { start [] with sp := 15 } (.call 0x300) = none ∧
    errorOf ((start []).setIndex 0xFFF) (.drw 0 1 2) = some (.memoryFault, 0x1000) ∧
    errorOf ((start []).setIndex 0xFFF) (.drw 0 1 1) = none ∧
    errorOf ((start []).setIndex 0x1000) (.drw 0 1 0) = none ∧
    errorOf ((start []).setIndex 0xFFE) (.bcd 0) = some (.memoryFault, 0x1000) ∧
    errorOf ((start []).setIndex 0xFFD) (.bcd 0) = none ∧
    errorOf ((start []).setIndex 0xFF1) (.stm 15) = some (.memoryFault, 0x1000) ∧
    errorOf ((start []).setIndex 0xFF0) (.stm 15) = none ∧
    errorOf ((start []).setIndex 0x1000) (.ldm 0) = some (.memoryFault, 0x1000) ∧
    errorOf ((start []).setIndex 0xFFF) (.ldm 0) = none := by decide +kernel

/-- A state in which each of the writing instructions changes what it writes. -/
def busy : State :=
  { withPixels (start [(0, 7), (1, 2)]) [(1, 1)] with
    index := 0x300, sp := 1, stack := List.replicate 16 0x204, randIn := [0xB7], dt := 9, st := 9, keys := 4 }

theorem witness_RegistersWrittenAsTabled :
    exec (.ldm 1) busy = .next (cycle 0xF165 busy) ∧ ¬ writes (.ldm 1) 2 ∧ writes (.ldm 1) 1 ∧
    exec (.add 0 1) busy = .next (cycle 0x8014 busy) ∧ ¬ writes (.add 0 1) 1 :=
  ⟨exec_cycle 0xF165 busy (by decide +kernel), by simp [writes], by simp [writes], rfl, by simp [writes]⟩

theorem witness_PcAfterAsTabled :
    exec (.ldm 1) busy = .next (cycle 0xF165 busy) ∧ errorOf busy (.ldm 1) = none ∧
    exec .ret (start []) = .next (cycle 0x00EE (start [])) ∧ errorOf (start []) .ret ≠ none :=
  ⟨exec_cycle 0xF165 busy (by decide +kernel), by decide +kernel,
    exec_cycle 0x00EE (start []) (by decide +kernel), by decide +kernel⟩

theorem witness_IndexWrittenByThree :
    exec (.addI 0) busy = .next (cycle 0xF01E busy) ∧ (cycle 0xF01E busy).index ≠ busy.index :=
  ⟨rfl, by decide +kernel⟩

theorem witness_MemoryAndScreenWriters :
    exec (.stm 0) busy = .next (cycle 0xF055 busy) ∧ (cycle 0xF055 busy).mem ≠ busy.mem ∧
    exec .cls busy = .next (cycle 0x00E0 busy) ∧ (cycle 0x00E0 busy).fb ≠ busy.fb :=
  ⟨exec_cycle 0xF055 busy (by decide +kernel), by decide +kernel, rfl, by decide +kernel⟩

theorem witness_StackTimerRandomWriters :
    exec .ret busy = .next (cycle 0x00EE busy) ∧ (cycle 0x00EE busy).sp ≠ busy.sp ∧
    exec (.setDt 0) busy = .next (cycle 0xF015 busy) ∧ (cycle 0xF015 busy).dt ≠ busy.dt ∧
    exec (.setSt 0) busy = .next (cycle 0xF018 busy) ∧ (cycle 0xF018 busy).st ≠ busy.st ∧
    exec (.rnd 0 0xFF) busy = .next (cycle 0xC0FF busy) ∧ (cycle 0xC0FF busy).randPos ≠ busy.randPos :=
  ⟨exec_cycle 0x00EE busy (by decide +kernel), by decide +kernel, rfl, by decide +kernel, rfl, by decide +kernel,
    rfl, by decide +kernel⟩

theorem witness_HostSideIsUntouched : exec (.waitKey 0) busy = .next (cycle 0xF00A busy) :=
  exec_cycle 0xF00A busy (by decide +kernel)

/-- One draw that collides and one that does not (a sprite bit on a lit pixel, and none). -/
theorem witness_DrwFlipsSpritePixels :
    errorOf ((start []).setIndex 0xFFF) (.drw 0 1 1) = none ∧
    (let s := withPixels (withBytes (start []) 0x300 [0xA0] |>.setIndex 0x300) [(0, 0)]
     errorOf s (.drw 0 1 1) = none ∧ spriteBit s 0 1 1 0 0 = true ∧ pixel s.fb 0 0 = true) ∧
    ∀ x y, ¬ (spriteBit ((start []).setIndex 0x1000) 0 1 0 x y = true ∧
      pixel ((start []).setIndex 0x1000).fb x y = true) := by
  refine ⟨by decide +kernel, by decide +kernel, fun x y h => ?_⟩
  have := h.1
  simp only [spriteBit, Bool.and_eq_true, decide_eq_true_eq] at this
  have h1 := this.1.1.1.1.1.1
  have h2 := this.1.1.1.1.1.2
  have h0 : (0 : Nibble).toNat = 0 := rfl
  omega

theorem witness_DrwTwiceRestoresScreen :
    (fun s : State => errorOf s (.drw 0 1 1) = none ∧ exec (.drw 0 1 1) s = .next (cycle 0xD011 s) ∧
      ((cycle 0xD011 s).reg 0).toNat % 64 = (s.reg 0).toNat % 64 ∧
      ((cycle 0xD011 s).reg 1).toNat % 32 = (s.reg 1).toNat % 32) (start [(0, 63), (1, 31)]) :=
  ⟨by decide +kernel, exec_cycle 0xD011 _ (by decide +kernel), by decide +kernel, by decide +kernel⟩

theorem witness_DrwOutOfRangeRaises :
    (fun s : State => 1 ≤ min (2 : Nibble).toNat (32 - (s.reg 1).toNat % 32) ∧
      0xFFF < s.index.toNat + min (2 : Nibble).toNat (32 - (s.reg 1).toNat % 32) - 1)
      ((start [(1, 30)]).setIndex 0xFFF) := by decide +kernel

/-- CallPushesOwnAddress, RetReturnsPastCall, CallThenRetRoundTrip: the stack with one free slot, full, with one entry,
and empty. -/
theorem witness_stack_statements :
    (fun s : State => s.StackOk ∧ s.sp ≠ s.params.stackMax ∧ s.pc.toNat ≤ 0xFFE)
      { (start []).setPc 0xFFE with sp := 15 } ∧
    { start [] with sp := 16 }.sp = (start []).params.stackMax ∧
    (fun s : State => s.StackOk ∧ s.sp ≠ 0) ((start []).push 0xFFE) ∧ (start []).sp = 0 := by decide +kernel

/-- SkipsOnLiteral, SkipsOnRegisters: equal and unequal operands, and a minor opcode that is not 0. -/
theorem witness_skip_statements :
    (start [(1, 0xFF)]).reg 1 = 0xFF ∧ (start [(1, 0xFF)]).reg 1 ≠ 0xFE ∧
    (start [(1, 5), (2, 5)]).reg 1 = (start [(1, 5), (2, 5)]).reg 2 ∧
    (start [(1, 5)]).reg 1 ≠ (start [(1, 5)]).reg 2 ∧ (15 : Nibble) ≠ 0 := by decide +kernel

/-- AddSetsCarry, SubtractsSetNotBorrow and ShiftsSetShiftedBit: a destination that is not VF. -/
theorem witness_flag_statements : (14 : Nibble) ≠ 15 := by decide

theorem witness_RndMasksOneDraw : busy.randIn = 0xB7 :: [] ∧ (start []).randIn = [] := ⟨rfl, rfl⟩

/-- BcdStoresDigits, StmStoresRegisters, LdmLoadsRegisters, BlockAccessOutOfRangeRaises: the last index in range and the
first out of range. -/
theorem witness_block_statements :
    (start []).mem.wf = true ∧ ((start []).setIndex 0xFFD).index.toNat + 2 ≤ 0xFFF ∧
    ((start []).setIndex 0xFF0).index.toNat + (15 : Nibble).toNat ≤ 0xFFF ∧
    0xFFF < ((start []).setIndex 0xFFE).index.toNat + 2 ∧
    0xFFF < ((start []).setIndex 0xFF1).index.toNat + (15 : Nibble).toNat := by decide +kernel

theorem witness_StmLdmRoundTrip :
    ∃ s t u : State, s.mem.wf = true ∧ s.index.toNat + (15 : Nibble).toNat ≤ 0xFFF ∧
      exec (.stm 15) s = .next t ∧ u.index = t.index ∧ u.v ≠ t.v ∧
      ∀ k, k ≤ (15 : Nibble).toNat → u.mem.read (t.dataAddr k) = t.mem.read (t.dataAddr k) :=
  ⟨(start [(3, 9)]).setIndex 0xFF0, cycle 0xFF55 ((start [(3, 9)]).setIndex 0xFF0),
    (cycle 0xFF55 ((start [(3, 9)]).setIndex 0xFF0)).setReg 3 0,
    by decide +kernel, by decide +kernel, exec_cycle 0xFF55 _ (by decide +kernel), rfl, by decide +kernel,
    fun _ _ => rfl⟩

/-- SkpSkipsOnPressedKey, SknpSkipsOnReleasedKey: key 15 pressed, key 15 not pressed, and a register of 16. -/
theorem witness_key_statements :
    (fun s : State => (s.reg 0).toNat < 16 ∧ s.keys.getLsbD (s.reg 0).toNat = true)
      { start [(0, 15)] with keys := 0x8000 } ∧
    (fun s : State => (s.reg 0).toNat < 16 ∧ s.keys.getLsbD (s.reg 0).toNat = false) (start [(0, 15)]) ∧
    16 ≤ ((start [(0, 16)]).reg 0).toNat := by decide +kernel

theorem witness_WaitKeyTakesLowestKey :
    ((0x8000#16).getLsbD 15 = true ∧ ∀ j, j < 15 → (0x8000#16).getLsbD j = false) ∧
    ∀ k, k < 16 → (start []).keys.getLsbD k = false := by decide +kernel

theorem witness_UnknownReportsAndContinues :
    opcodeRows.all (fun r => 0x00E1 &&& r.mask != r.value) = true ∧
    opcodeRows.all (fun r => 0xFFFF &&& r.mask != r.value) = true := by decide

end Sys2Proof.Tests
end

section
/-! The family 40_screen.md: the cleared framebuffer, and CLS (R120). -/

namespace Sys2Proof.Machine

open Sys2Proof.Frame

/-- Every row of the cleared framebuffer is zero, the rows outside it included. -/
@[simp] theorem fbRow_replicate_zero (y : Nat) : fbRow (Vector.replicate 32 0#64) y = 0#64 := by
  unfold fbRow
  split
  · exact Vector.getElem_replicate _
  · rfl

/-- The cleared framebuffer has no pixel on (10_state.md R30). -/
@[simp] theorem pixel_replicate_zero (x y : Nat) : pixel (Vector.replicate 32 0#64) x y = false := by
  simp [pixel]

/-- A state whose memory is the same list reads the same bytes. -/
theorem sameMemory_of_mem_eq {s t : State} (h : t.mem = s.mem) : SameMemory s t := by
  intro a
  rw [h]

/-- CLS replaces the framebuffer by the cleared one and advances (40_screen.md R120). -/
theorem exec_cls (s : State) : exec .cls s = .next (s.setFb (Vector.replicate 32 0#64)).advance := rfl

/-- Settles O29: the successor is `exec_cls`'s, whose framebuffer is the cleared one; the frame is that of `setFb` and
`advance`. -/
theorem clsClearsScreen : Obligations.ClsClearsScreen := by
  have hdecode : decode 0x00E0 = .cls := by decide
  refine ⟨hdecode, fun s => ⟨_, exec_cls s, ?pixels, ?pc, ?frame, ?memory⟩⟩
  case pixels => exact fun x y _ _ => pixel_replicate_zero x y
  case pc => simp
  case frame => rfl
  case memory => exact sameMemory_of_mem_eq (by simp)

end Sys2Proof.Machine
end

section
/-! The family 41_flow.md: what moving PC leaves unchanged, and JP (R132). -/

namespace Sys2Proof.Machine

open Sys2Proof.Frame

/-- Moving PC changes nothing else. -/
theorem onlyPc_setPc (s : State) (a : Word) : OnlyPc s (s.setPc a) :=
  ⟨rfl, sameMemory_of_mem_eq (State.setPc_mem s a)⟩

/-- The words of format ADDR with major opcode 1 are JP's (30_encoding.md R95). -/
theorem decode_encodeAddr_jp (nnn : Addr12) : decode (encodeAddr 0x1 nnn) = .jp nnn := by
  simp [decode]

/-- JP moves PC to its literal (41_flow.md R132). -/
theorem exec_jp (nnn : Addr12) (s : State) : exec (.jp nnn) s = .next (s.setPc (addrOperand nnn)) := rfl

/-- Settles O33: the successor is `exec_jp`'s, whose PC is the literal zero-extended; the frame is that of `setPc`. -/
theorem jpJumpsToLiteral : Obligations.JpJumpsToLiteral := by
  refine fun nnn s => ⟨decode_encodeAddr_jp nnn, _, exec_jp nnn s, ?pc, ?frame⟩
  case pc => rw [State.setPc_pc, addrOperand_toNat]
  case frame => exact onlyPc_setPc s _

end Sys2Proof.Machine
end

section
/-! The family 42_skip.md: a skip on each side of its condition (R140), and the skips on a literal (R141, R142). -/

namespace Sys2Proof.Machine

open Sys2Proof.Frame

/-- A skip changes nothing but PC. -/
theorem onlyPc_skipIf (s : State) (c : Bool) : OnlyPc s (s.skipIf c) := onlyPc_setPc s _

theorem skipIf_pc_of_true {s : State} {c : Bool} (h : c = true) : (s.skipIf c).pc = s.pc + 4 := by
  subst h; rfl

theorem skipIf_pc_of_false {s : State} {c : Bool} (h : c = false) : (s.skipIf c).pc = s.pc + 2 := by
  subst h; rfl

/-- The words of format REG_IMM with major opcode 3 are SE_IMM's (30_encoding.md R95). -/
theorem decode_encodeRegByte_seImm (x : Nibble) (nn : Byte) : decode (encodeRegByte 0x3 x nn) = .seImm x nn := by
  simp [decode]

/-- The words of format REG_IMM with major opcode 4 are SNE_IMM's (30_encoding.md R95). -/
theorem decode_encodeRegByte_sneImm (x : Nibble) (nn : Byte) : decode (encodeRegByte 0x4 x nn) = .sneImm x nn := by
  simp [decode]

/-- SE_IMM skips if V[X] is its literal (42_skip.md R141). -/
theorem exec_seImm (x : Nibble) (nn : Byte) (s : State) :
    exec (.seImm x nn) s = .next (s.skipIf (s.reg x == nn)) := rfl

/-- SNE_IMM skips if V[X] is not its literal (42_skip.md R142). -/
theorem exec_sneImm (x : Nibble) (nn : Byte) (s : State) :
    exec (.sneImm x nn) s = .next (s.skipIf (s.reg x != nn)) := rfl

/-- Settles O38: the successors are those of `exec_seImm` and `exec_sneImm`; each side of the condition is one of
the two equations of PC after `skipIf`. -/
theorem skipsOnLiteral : Obligations.SkipsOnLiteral := by
  refine fun x nn s => ⟨decode_encodeRegByte_seImm x nn, decode_encodeRegByte_sneImm x nn, ?seImm, ?sneImm⟩
  case seImm =>
    exact ⟨_, exec_seImm x nn s, onlyPc_skipIf s _, fun heq => skipIf_pc_of_true (beq_iff_eq.mpr heq),
      fun hne => skipIf_pc_of_false (beq_eq_false_iff_ne.mpr hne)⟩
  case sneImm =>
    exact ⟨_, exec_sneImm x nn s, onlyPc_skipIf s _, fun hne => skipIf_pc_of_true (bne_iff_ne.mpr hne),
      fun heq => skipIf_pc_of_false (bne_eq_false_iff_eq.mpr heq)⟩

end Sys2Proof.Machine
end

section
/-! The family 43_alu.md: what an instruction that writes one register leaves unchanged, LD_IMM, ADD_IMM and MOV (R151 to
R153), and AND and XOR (R155, R157). -/

namespace Sys2Proof.Machine

open Sys2Proof.Frame

/-! Writing one register and advancing. -/

theorem reg_setReg_advance (s : State) (x : Nibble) (b : Byte) : (s.setReg x b).advance.reg x = b := by
  rw [State.reg_advance, State.reg_setReg_same]

theorem setReg_advance_pc (s : State) (x : Nibble) (b : Byte) : (s.setReg x b).advance.pc = s.pc + 2 := by
  simp

/-- Writing V[X] and advancing changes nothing but V[X] and PC, VF included unless X is 15. -/
theorem onlyRegs_setReg_advance (s : State) (x : Nibble) (b : Byte) : OnlyRegs s (s.setReg x b).advance [x] := by
  refine ⟨fun r hr => ?otherRegs, rfl, sameMemory_of_mem_eq (by simp)⟩
  case otherRegs =>
    rw [State.reg_advance, State.reg_setReg_other s x r b (List.ne_of_not_mem_cons hr)]

/-! The words of the instructions (30_encoding.md R95). -/

theorem decode_encodeRegByte_ldImm (x : Nibble) (nn : Byte) : decode (encodeRegByte 0x6 x nn) = .ldImm x nn := by
  simp [decode]

theorem decode_encodeRegByte_addImm (x : Nibble) (nn : Byte) : decode (encodeRegByte 0x7 x nn) = .addImm x nn := by
  simp [decode]

theorem decode_encodeRegReg_mov (x y : Nibble) : decode (encodeRegReg 0x8 x y 0x0) = .mov x y := by
  simp [decode, decode8]

theorem decode_encodeRegReg_and (x y : Nibble) : decode (encodeRegReg 0x8 x y 0x2) = .and x y := by
  simp [decode, decode8]

theorem decode_encodeRegReg_xor (x y : Nibble) : decode (encodeRegReg 0x8 x y 0x3) = .xor x y := by
  simp [decode, decode8]

/-! Each of the instructions writes V[X] once and advances. -/

/-- LD_IMM writes its literal (43_alu.md R151). -/
theorem exec_ldImm (x : Nibble) (nn : Byte) (s : State) :
    exec (.ldImm x nn) s = .next (s.setReg x nn).advance := rfl

/-- ADD_IMM writes the wrapped sum of V[X] and its literal (43_alu.md R152). -/
theorem exec_addImm (x : Nibble) (nn : Byte) (s : State) :
    exec (.addImm x nn) s = .next (s.setReg x (s.reg x + nn)).advance := rfl

/-- MOV writes V[Y] (43_alu.md R153). -/
theorem exec_mov (x y : Nibble) (s : State) :
    exec (.mov x y) s = .next (s.setReg x (s.reg y)).advance := rfl

/-- AND writes the conjunction of V[X] and V[Y] (43_alu.md R155). -/
theorem exec_and (x y : Nibble) (s : State) :
    exec (.and x y) s = .next (s.setReg x (s.reg x &&& s.reg y)).advance := rfl

/-- XOR writes the exclusive disjunction of V[X] and V[Y] (43_alu.md R157). -/
theorem exec_xor (x y : Nibble) (s : State) :
    exec (.xor x y) s = .next (s.setReg x (s.reg x ^^^ s.reg y)).advance := rfl

/-- Settles O40: each successor writes V[X] once and advances; the sum of ADD_IMM is that of two bytes, taken modulo
256. -/
theorem loadsAndWrappingAdd : Obligations.LoadsAndWrappingAdd := by
  refine ⟨fun x nn s => ⟨decode_encodeRegByte_ldImm x nn, _, exec_ldImm x nn s, ?ldImm, ?pcLdImm, ?frameLdImm⟩,
    fun x nn s => ⟨decode_encodeRegByte_addImm x nn, _, exec_addImm x nn s, ?addImm, ?pcAddImm, ?frameAddImm⟩,
    fun x y s => ⟨decode_encodeRegReg_mov x y, _, exec_mov x y s, ?mov, ?pcMov, ?frameMov⟩⟩
  case ldImm | mov => exact reg_setReg_advance s x _
  case addImm => rw [reg_setReg_advance, BitVec.toNat_add]
  case pcLdImm | pcAddImm | pcMov => exact setReg_advance_pc s x _
  case frameLdImm | frameAddImm | frameMov => exact onlyRegs_setReg_advance s x _

/-- Settles O41: each successor writes V[X] once and advances, and a bit of the value written is that operation on the
operands' bits. -/
theorem andXorBitwise : Obligations.AndXorBitwise := by
  refine fun x y s => ⟨decode_encodeRegReg_and x y, decode_encodeRegReg_xor x y,
    ⟨_, exec_and x y s, fun k => ?and, setReg_advance_pc s x _, onlyRegs_setReg_advance s x _⟩,
    ⟨_, exec_xor x y s, fun k => ?xor, setReg_advance_pc s x _, onlyRegs_setReg_advance s x _⟩⟩
  case and => rw [reg_setReg_advance, BitVec.getLsbD_and]
  case xor => rw [reg_setReg_advance, BitVec.getLsbD_xor]

end Sys2Proof.Machine
end

section
/-! The family 44_index_memory.md: what an instruction that writes I leaves unchanged, LD_I (R170) and FONT (R172). -/

namespace Sys2Proof.Machine

open Sys2Proof.Frame

/-! Writing I and advancing. -/

theorem setIndex_advance_index (s : State) (a : Word) : (s.setIndex a).advance.index = a := by
  simp

theorem setIndex_advance_pc (s : State) (a : Word) : (s.setIndex a).advance.pc = s.pc + 2 := by
  simp

/-- Writing I and advancing changes nothing but I and PC. -/
theorem onlyIndex_setIndex_advance (s : State) (a : Word) : OnlyIndex s (s.setIndex a).advance :=
  ⟨rfl, sameMemory_of_mem_eq (by simp)⟩

/-- The glyph of a digit stands at five times the digit, which fits a word for every low nibble (44_index_memory.md
R172). -/
theorem glyphAddress_toNat (v : Byte) : (glyphAddress v).toNat = v.toNat % 16 * 5 := by
  have hdigit : (v &&& 0x0F).toNat = v.toNat % 16 := Nat.and_two_pow_sub_one_eq_mod v.toNat 4
  rw [glyphAddress, BitVec.toNat_mul, BitVec.toNat_setWidth, hdigit, show (5 : Word).toNat = 5 from rfl]
  omega

/-- The words of format ADDR with major opcode A are LD_I's (30_encoding.md R95). -/
theorem decode_encodeAddr_ldI (nnn : Addr12) : decode (encodeAddr 0xA nnn) = .ldI nnn := by
  simp [decode]

/-- The words of major opcode F and minor opcode 29 are FONT's (30_encoding.md R95). -/
theorem decode_encodeRegByte_font (x : Nibble) : decode (encodeRegByte 0xF x 0x29) = .font x := by
  simp [decode, decodeF]

/-- LD_I writes its literal, zero-extended, to I (44_index_memory.md R170). -/
theorem exec_ldI (nnn : Addr12) (s : State) :
    exec (.ldI nnn) s = .next (s.setIndex (addrOperand nnn)).advance := rfl

/-- FONT writes the address of the glyph of V[X] to I (44_index_memory.md R172). -/
theorem exec_font (x : Nibble) (s : State) :
    exec (.font x) s = .next (s.setIndex (glyphAddress (s.reg x))).advance := rfl

/-- Settles O47: each successor writes I once and advances; the value written is the zero-extended literal for LD_I
and the glyph's address for FONT. -/
theorem indexLoads : Obligations.IndexLoads := by
  refine ⟨fun nnn s => ⟨decode_encodeAddr_ldI nnn, _, exec_ldI nnn s, ?ldI, ?pcLdI, ?frameLdI⟩,
    fun x s => ⟨decode_encodeRegByte_font x, _, exec_font x s, ?font, ?pcFont, ?frameFont⟩⟩
  case ldI => rw [setIndex_advance_index, addrOperand_toNat]
  case font => rw [setIndex_advance_index, glyphAddress_toNat]
  case pcLdI | pcFont => exact setIndex_advance_pc s _
  case frameLdI | frameFont => exact onlyIndex_setIndex_advance s _

end Sys2Proof.Machine
end

section
/-! The family 45_keys_timers.md: SKP (R180) and GET_DT (R182). -/

namespace Sys2Proof.Machine

open Sys2Proof.Frame

/-- A byte is a key number exactly when it is below 16 (45_keys_timers.md R180). -/
theorem isKey_iff (k : Byte) : isKey k = true ↔ k.toNat < 16 := decide_eq_true_iff

/-- A byte of 16 or more is no key number. -/
theorem isKey_eq_false_iff (k : Byte) : isKey k = false ↔ 16 ≤ k.toNat := by
  rw [← Bool.not_eq_true, isKey_iff, Nat.not_lt]

/-- The words of major opcode E and minor opcode 9E are SKP's (30_encoding.md R95). -/
theorem decode_encodeRegByte_skp (x : Nibble) : decode (encodeRegByte 0xE x 0x9E) = .skp x := by
  simp [decode]

/-- The words of major opcode F and minor opcode 07 are GET_DT's (30_encoding.md R95). -/
theorem decode_encodeRegByte_getDt (x : Nibble) : decode (encodeRegByte 0xF x 0x07) = .getDt x := by
  simp [decode, decodeF]

/-- SKP skips if V[X] is a key number and that key is pressed (45_keys_timers.md R180). -/
theorem exec_skp (x : Nibble) (s : State) :
    exec (.skp x) s = .next (s.skipIf (isKey (s.reg x) && keyDown s.keys (s.reg x))) := rfl

/-- GET_DT writes DT to V[X] (45_keys_timers.md R182). -/
theorem exec_getDt (x : Nibble) (s : State) : exec (.getDt x) s = .next (s.setReg x s.dt).advance := rfl

/-- Settles O54: the successor is `exec_skp`'s; a pressed key makes both halves of its condition true, a released key
makes the second false, and a V[X] of 16 or more the first. -/
theorem skpSkipsOnPressedKey : Obligations.SkpSkipsOnPressedKey := by
  refine fun x s => ⟨decode_encodeRegByte_skp x, _, exec_skp x s, onlyPc_skipIf s _, ?pressed, ?released, ?noKey⟩
  case pressed =>
    exact fun hkey hdown => skipIf_pc_of_true (Bool.and_eq_true_iff.mpr ⟨(isKey_iff _).mpr hkey, hdown⟩)
  case released =>
    exact fun _ hup => skipIf_pc_of_false (Bool.and_eq_false_iff.mpr (.inr hup))
  case noKey =>
    exact fun hge => skipIf_pc_of_false (Bool.and_eq_false_iff.mpr (.inl ((isKey_eq_false_iff _).mpr hge)))

/-- Settles O56: the successor is `exec_getDt`'s, which writes V[X] once and advances; neither touches DT. -/
theorem getDtReadsDelayTimer : Obligations.GetDtReadsDelayTimer := by
  refine fun x s => ⟨decode_encodeRegByte_getDt x, _, exec_getDt x s, ?readsDt, ?keepsDt, ?pc, ?frame⟩
  case readsDt => exact reg_setReg_advance s x _
  case keepsDt => rw [State.advance_eq, State.setPc_dt, State.setReg_dt]
  case pc => exact setReg_advance_pc s x _
  case frame => exact onlyRegs_setReg_advance s x _

end Sys2Proof.Machine
end

section
/-! The family 30_encoding.md: encoding and decoding undo each other, and decoding follows the opcode map (R94 to
R97). -/

namespace Sys2Proof

open Sys2Proof.Frame

theorem eq_ofNat_of_toNat_eq {n k : Nat} {a : BitVec n} (h : a.toNat = k) : a = BitVec.ofNat n k := by
  rw [← h, BitVec.ofNat_toNat, BitVec.setWidth_eq]

/-- The last arm of the decode algorithm is major opcode F (30_encoding.md R95). -/
theorem fieldOp_eq_F {w : Word} (h : ∀ k, k < 15 → (fieldOp w).toNat = k → False) : fieldOp w = 0xF#4 := by
  have hlt := (fieldOp w).isLt
  have hge : ¬ (fieldOp w).toNat < 15 := fun hk => h _ hk rfl
  exact eq_ofNat_of_toNat_eq (k := 15) (by omega)

/-- Encoding undoes decoding within major opcode 8 (30_encoding.md R95). -/
theorem encode_decode8 {w : Word} (hop : fieldOp w = 0x8#4) : encode (decode8 w) = w := by
  have hw := encodeRegReg_fields w
  rw [hop] at hw
  unfold decode8
  split
  case h_10 => rfl
  all_goals
    next hn =>
    rwa [eq_ofNat_of_toNat_eq hn] at hw

/-- Encoding undoes decoding within major opcode F (30_encoding.md R95). -/
theorem encode_decodeF {w : Word} (hop : fieldOp w = 0xF#4) : encode (decodeF w) = w := by
  have hw := encodeRegByte_fields w
  rw [hop] at hw
  unfold decodeF
  split
  case h_10 => rfl
  all_goals
    next hn =>
    rwa [eq_ofNat_of_toNat_eq hn] at hw

/-- Every word is the encoding of what it decodes to: each arm of the decode algorithm keeps the fields its format
has. -/
theorem encode_decode (w : Word) : encode (decode w) = w := by
  have haddr := encodeAddr_fields w
  have hbyte := encodeRegByte_fields w
  have hreg := encodeRegReg_fields w
  unfold decode
  split
  case h_1 =>
    split
    · next hcls => exact hcls.symm
    · split
      · next hret => exact hret.symm
      · rfl
  case h_6 hop =>
    split
    · next hn => rwa [eq_ofNat_of_toNat_eq hop, hn] at hreg
    · rfl
  case h_9 hop => exact encode_decode8 (eq_ofNat_of_toNat_eq hop)
  case h_10 hop =>
    split
    · next hn => rwa [eq_ofNat_of_toNat_eq hop, hn] at hreg
    · rfl
  case h_14 hop => rwa [eq_ofNat_of_toNat_eq hop] at hreg
  case h_15 hop =>
    split
    · next hnn => rwa [eq_ofNat_of_toNat_eq hop, hnn] at hbyte
    · split
      · next hnn => rwa [eq_ofNat_of_toNat_eq hop, hnn] at hbyte
      · rfl
  case h_16 => exact encode_decodeF (fieldOp_eq_F (by grind))
  case h_2 hop | h_3 hop | h_11 hop | h_12 hop => rwa [eq_ofNat_of_toNat_eq hop] at haddr
  case h_4 hop | h_5 hop | h_7 hop | h_8 hop | h_13 hop => rwa [eq_ofNat_of_toNat_eq hop] at hbyte

theorem isDefinedWord_iff_selects (w : Word) :
    isDefinedWord w = true ↔ ∃ r ∈ opcodeRows, w &&& r.mask = r.value := by
  simp only [isDefinedWord, OpcodeRow.selects, List.any_eq_true, beq_iff_eq]

/-- The word of an instruction selects the row beside its mnemonic: the mask leaves the opcode digits and clears the
operands (30_encoding.md R96). -/
theorem encode_selects_rowOf {i : Instr} {r : OpcodeRow} (h : rowOf i = some r) :
    r ∈ opcodeRows ∧ encode i &&& r.mask = r.value := by
  have reg (op x y n : Nibble) : encodeRegReg op x y n &&& 0xF00F#16 = encodeRegReg op 0 0 n :=
    (mask_F00F _ op n).mpr (by simp)
  have regOp (op x y n : Nibble) : encodeRegReg op x y n &&& 0xF000#16 = encodeAddr op 0 :=
    (mask_F000 _ op).mpr (by simp)
  have byteOp (op x : Nibble) (nn : Byte) : encodeRegByte op x nn &&& 0xF000#16 = encodeAddr op 0 :=
    (mask_F000 _ op).mpr (by simp)
  have byte (op x : Nibble) (nn : Byte) : encodeRegByte op x nn &&& 0xF0FF#16 = encodeRegByte op 0 nn :=
    (mask_F0FF _ op nn).mpr (by simp)
  have addr (op : Nibble) (nnn : Addr12) : encodeAddr op nnn &&& 0xF000#16 = encodeAddr op 0 :=
    (mask_F000 _ op).mpr (by simp)
  cases i with
  | unknown w => exact absurd h (by simp [rowOf])
  | cls | ret => cases h; exact ⟨by decide, by decide⟩
  | jp nnn | call nnn | ldI nnn | jpV0 nnn => cases h; exact ⟨by decide, addr _ nnn⟩
  | seImm x nn | sneImm x nn | ldImm x nn | addImm x nn | rnd x nn => cases h; exact ⟨by decide, byteOp _ x nn⟩
  | drw x y n => cases h; exact ⟨by decide, regOp _ x y n⟩
  | seReg x y | mov x y | or x y | and x y | xor x y | add x y | sub x y | shr x y | subn x y | shl x y
  | sneReg x y => cases h; exact ⟨by decide, reg _ x y _⟩
  | skp x | sknp x | getDt x | waitKey x | setDt x | setSt x | addI x | font x | bcd x | stm x | ldm x =>
    cases h; exact ⟨by decide, byte _ x _⟩

theorem rowOf_eq_none_iff (i : Instr) : rowOf i = none ↔ ∃ w, i = .unknown w := by
  cases i <;> simp [rowOf]

/-- A word whose decoding has no row is carried by an Unknown whole (46_unknown.md R190). -/
theorem rowOf_decode_eq_none_iff (w : Word) : rowOf (decode w) = none ↔ decode w = .unknown w := by
  rw [rowOf_eq_none_iff]
  refine ⟨fun ⟨v, hv⟩ => ?_, fun h => ⟨w, h⟩⟩
  have hw := encode_decode w
  rw [hv] at hw
  rw [hv, show v = w from hw]

theorem wellFormed_unknown (w : Word) : (Instr.unknown w).wellFormed = true ↔ isDefinedWord w = false := by
  simp [Instr.wellFormed]

/-- A word that no row selects decodes to Unknown: the row of any other decoding would select it. -/
theorem decode_of_not_defined {w : Word} (h : isDefinedWord w = false) : decode w = .unknown w := by
  refine (rowOf_decode_eq_none_iff w).mp (Option.eq_none_iff_forall_ne_some.mpr fun r hr => ?_)
  obtain ⟨hmem, hsel⟩ := encode_selects_rowOf hr
  rw [encode_decode] at hsel
  exact Bool.false_ne_true (h.symm.trans ((isDefinedWord_iff_selects w).mpr ⟨r, hmem, hsel⟩))

/-- Decoding undoes encoding (30_encoding.md R95, R104). -/
theorem decode_encode {i : Instr} (h : i.wellFormed = true) : decode (encode i) = i := by
  cases i with
  | unknown w => exact decode_of_not_defined ((wellFormed_unknown w).mp h)
  | cls | ret => decide
  | _ => simp [encode, decode, decode8, decodeF]

/-- A word of another major opcode than 0 is neither CLS nor RET. -/
theorem ne_cls_ne_ret {w : Word} (h : fieldOp w ≠ 0x0) : w ≠ 0x00E0 ∧ w ≠ 0x00EE :=
  ⟨fun e => h (e ▸ rfl), fun e => h (e ▸ rfl)⟩

/-- Within major opcode 8 the words left over select no row. -/
theorem wellFormed_decode8 {w : Word} (hop : fieldOp w = 0x8#4) : (decode8 w).wellFormed = true := by
  obtain ⟨hcls, hret⟩ := ne_cls_ne_ret (w := w) (by simp [hop])
  unfold decode8
  split
  case h_10 =>
    rw [wellFormed_unknown, ← Bool.not_eq_true, isDefinedWord_iff]
    simp_all [BitVec.toNat_eq (x := fieldN w)]
  all_goals rfl

/-- Within major opcode F the words left over select no row. -/
theorem wellFormed_decodeF {w : Word} (hop : fieldOp w = 0xF#4) : (decodeF w).wellFormed = true := by
  obtain ⟨hcls, hret⟩ := ne_cls_ne_ret (w := w) (by simp [hop])
  unfold decodeF
  split
  case h_10 =>
    rw [wellFormed_unknown, ← Bool.not_eq_true, isDefinedWord_iff]
    simp_all [BitVec.toNat_eq (x := fieldNN w)]
  all_goals rfl

/-- A word decodes to Unknown only when no row selects it (30_encoding.md R97). -/
theorem wellFormed_decode (w : Word) : (decode w).wellFormed = true := by
  unfold decode
  split
  case h_1 hop =>
    split
    · rfl
    · split
      · rfl
      · simp_all [wellFormed_unknown, ← Bool.not_eq_true, isDefinedWord_iff, eq_ofNat_of_toNat_eq hop]
  case h_6 hop | h_10 hop =>
    split
    · rfl
    · obtain ⟨hcls, hret⟩ := ne_cls_ne_ret (w := w) (by simp [eq_ofNat_of_toNat_eq hop])
      simp_all [wellFormed_unknown, ← Bool.not_eq_true, isDefinedWord_iff, eq_ofNat_of_toNat_eq hop]
  case h_9 hop => exact wellFormed_decode8 (eq_ofNat_of_toNat_eq hop)
  case h_15 hop =>
    split
    · rfl
    · split
      · rfl
      · obtain ⟨hcls, hret⟩ := ne_cls_ne_ret (w := w) (by simp [eq_ofNat_of_toNat_eq hop])
        simp_all [wellFormed_unknown, ← Bool.not_eq_true, isDefinedWord_iff, eq_ofNat_of_toNat_eq hop]
  case h_16 => exact wellFormed_decodeF (fieldOp_eq_F (by grind))
  all_goals rfl

/-- No row selects a word exactly when its decoding is Unknown (30_encoding.md R97; D14, log 22). -/
theorem decode_unknown_iff (w : Word) : decode w = .unknown w ↔ ∀ r ∈ opcodeRows, w &&& r.mask ≠ r.value := by
  have hnone : (∀ r ∈ opcodeRows, w &&& r.mask ≠ r.value) ↔ isDefinedWord w = false := by
    simp [← Bool.not_eq_true, isDefinedWord_iff_selects]
  rw [hnone]
  refine ⟨fun h => (wellFormed_unknown w).mp (h ▸ wellFormed_decode w), decode_of_not_defined⟩

theorem decodeBytes_encodeBytes (i : Instr) : decodeBytes (encodeBytes i) = .ok (decode (encode i), []) := by
  rw [encodeBytes, decodeBytes, wordOfBytes_highByte_lowByte]

/-- Settles O1: the word by `decode_encode`, its two bytes because they assemble to it. -/
theorem decodeUndoesEncode : Obligations.DecodeUndoesEncode := by
  intro i hwf
  have hword := decode_encode hwf
  exact ⟨hword, by rw [decodeBytes_encodeBytes, hword]⟩

/-- Settles O2: both halves follow the arms of the decode algorithm. -/
theorem encodeUndoesDecode : Obligations.EncodeUndoesDecode :=
  fun w => ⟨encode_decode w, wellFormed_decode w⟩

/-- Settles O3: the encoding of what the word decodes to, which is the word, selects the row of its mnemonic; what
has no row is Unknown. -/
theorem decodeFollowsOpcodeMap : Obligations.DecodeFollowsOpcodeMap := by
  refine fun w => ⟨fun r hr => ?row, ?none, (decode_unknown_iff w).mpr⟩
  case row =>
    have hsel := encode_selects_rowOf hr
    rwa [encode_decode] at hsel
  case none => rw [rowOf_decode_eq_none_iff, decode_unknown_iff]

/-- No two rows of the map agree where both masks look (30_encoding.md R94). -/
theorem opcodeRows_disjoint :
    opcodeRows.Pairwise fun r r' => r.value &&& r'.mask ≠ r'.value &&& r.mask := by decide

/-- Two rows that select one word agree where both masks look. -/
theorem selects_agree {r r' : OpcodeRow} {w : Word} (h : r.selects w = true) (h' : r'.selects w = true) :
    r.value &&& r'.mask = r'.value &&& r.mask := by
  simp only [OpcodeRow.selects, beq_iff_eq] at h h'
  rw [← h, ← h', BitVec.and_assoc, BitVec.and_assoc, BitVec.and_comm r.mask]

/-- Settles O4: the rows that select the word would be disjoint and agree, so there is at most one. -/
theorem opcodeRowsNeverOverlap : Obligations.OpcodeRowsNeverOverlap := by
  intro w
  have hdisjoint := opcodeRows_disjoint.filter (·.selects w)
  have hselects : ∀ r ∈ opcodeRows.filter (·.selects w), r.selects w = true := fun r hr => (List.mem_filter.mp hr).2
  match hrows : opcodeRows.filter (·.selects w) with
  | [] | [_] => simp [hrows]
  | r :: r' :: rest =>
    rw [hrows] at hdisjoint hselects
    exact absurd (selects_agree (hselects r (by simp)) (hselects r' (by simp)))
      ((List.pairwise_cons.mp hdisjoint).1 r' (by simp))

/-- Settles O5: each word is decoded by evaluation. -/
theorem specWordsDecode : Obligations.SpecWordsDecode := by
  unfold Obligations.SpecWordsDecode
  decide

end Sys2Proof
end

section
/-! What an instruction does, said once for all of them: the error it raises (60_exceptions.md R206), or else its
effect. Then the rules over all instructions: who writes which part of the state (10_state.md). -/

namespace Sys2Proof.Machine

open Sys2Proof.Frame

/-- The offending address of a stack error is PC (60_exceptions.md R208). -/
theorem raiseStack_eq_raised (s : State) (c : Cause) : s.raiseStack c = raised s c s.pc.toNat := by
  rw [State.raiseStack, ← BitVec.ofNat_toNat]
  rfl

/-- What WAIT_KEY does: the lowest pressed key is taken, or the machine waits (45_keys_timers.md R183). -/
def takeKey (x : Nibble) (s : State) : State :=
  match lowestKey s.keys with
  | some k => (s.setReg x (BitVec.ofNat 8 k)).advance
  | none => s.setWaiting true

theorem takeKey_of_some {s : State} {k : Nat} (x : Nibble) (h : lowestKey s.keys = some k) :
    takeKey x s = (s.setReg x (BitVec.ofNat 8 k)).advance := by
  rw [takeKey, h]

theorem takeKey_of_none {s : State} (x : Nibble) (h : lowestKey s.keys = none) :
    takeKey x s = s.setWaiting true := by
  rw [takeKey, h]

/-- WAIT_KEY touches V, PC and `waiting` alone. -/
theorem takeKey_frame (x : Nibble) (s : State) :
    takeKey x s =
      { s with v := (takeKey x s).v, pc := (takeKey x s).pc, waiting := (takeKey x s).waiting } := by
  cases hkey : lowestKey s.keys with
  | some k => rw [takeKey_of_some x hkey]; rfl
  | none => rw [takeKey_of_none x hkey]; rfl

section
variable (x : Nibble) (s : State)
@[simp] theorem takeKey_index : (takeKey x s).index = s.index := by rw [takeKey_frame]
@[simp] theorem takeKey_sp : (takeKey x s).sp = s.sp := by rw [takeKey_frame]
@[simp] theorem takeKey_stack : (takeKey x s).stack = s.stack := by rw [takeKey_frame]
@[simp] theorem takeKey_dt : (takeKey x s).dt = s.dt := by rw [takeKey_frame]
@[simp] theorem takeKey_st : (takeKey x s).st = s.st := by rw [takeKey_frame]
@[simp] theorem takeKey_fb : (takeKey x s).fb = s.fb := by rw [takeKey_frame]
@[simp] theorem takeKey_mem : (takeKey x s).mem = s.mem := by rw [takeKey_frame]
@[simp] theorem takeKey_randPos : (takeKey x s).randPos = s.randPos := by rw [takeKey_frame]
@[simp] theorem takeKey_randIn : (takeKey x s).randIn = s.randIn := by rw [takeKey_frame]
@[simp] theorem takeKey_unknownReport : (takeKey x s).unknownReport = s.unknownReport := by rw [takeKey_frame]
end

/-- The state an instruction leaves when it raises no error. -/
def effect (s : State) : Instr → State
  | .cls => (s.setFb (Vector.replicate 32 0)).advance
  | .ret => s.pop.setPc (s.top + 2)
  | .jp nnn => s.setPc (addrOperand nnn)
  | .call nnn => (s.push s.pc).setPc (addrOperand nnn)
  | .jpV0 nnn => s.setPc (offsetOperand nnn (s.reg 0))
  | .seImm x nn => s.skipIf (s.reg x == nn)
  | .sneImm x nn => s.skipIf (s.reg x != nn)
  | .seReg x y => s.skipIf (s.reg x == s.reg y)
  | .sneReg x y => s.skipIf (s.reg x != s.reg y)
  | .skp x => s.skipIf (isKey (s.reg x) && keyDown s.keys (s.reg x))
  | .sknp x => s.skipIf (isKey (s.reg x) && !keyDown s.keys (s.reg x))
  | .ldImm x nn => (s.setReg x nn).advance
  | .addImm x nn => (s.setReg x (s.reg x + nn)).advance
  | .mov x y => (s.setReg x (s.reg y)).advance
  | .or x y => (s.setReg x (s.reg x ||| s.reg y)).advance
  | .and x y => (s.setReg x (s.reg x &&& s.reg y)).advance
  | .xor x y => (s.setReg x (s.reg x ^^^ s.reg y)).advance
  | .add x y => (s.setRegFlag x (s.reg x + s.reg y) (carryFlag (s.reg x) (s.reg y))).advance
  | .sub x y => (s.setRegFlag x (s.reg x - s.reg y) (notBorrowFlag (s.reg x) (s.reg y))).advance
  | .shr x y => (s.setRegFlag x (s.reg y >>> 1) (shiftedOutLow (s.reg y))).advance
  | .subn x y => (s.setRegFlag x (s.reg y - s.reg x) (notBorrowFlag (s.reg y) (s.reg x))).advance
  | .shl x y => (s.setRegFlag x (s.reg y <<< 1) (shiftedOutHigh (s.reg y))).advance
  | .rnd x nn => (s.takeRand.setReg x (s.randByte &&& nn)).advance
  | .getDt x => (s.setReg x s.dt).advance
  | .waitKey x => takeKey x s
  | .setDt x => (s.setDelay (s.reg x)).advance
  | .setSt x => (s.setSound (s.reg x)).advance
  | .ldI nnn => (s.setIndex (addrOperand nnn)).advance
  | .addI x => (s.setIndex (indexSum s.index (s.reg x))).advance
  | .font x => (s.setIndex (glyphAddress (s.reg x))).advance
  | .bcd x => (s.setMem (s.mem.writeBytes (s.dataAddr 0) (bcdDigits (s.reg x)))).advance
  | .stm x => (s.setMem (storeRegs s.v (s.dataAddr 0) s.mem (x.toNat + 1))).advance
  | .ldm x => (s.setRegs (loadRegs s.mem (s.dataAddr 0) s.v (x.toNat + 1))).advance
  | .drw x y n => ((s.setFb (drwDrawn s x y n).1).setReg regF (collisionFlag (drwDrawn s x y n).2)).advance
  | .unknown w => (s.report w).advance

/-- The rows DRW draws are in range, or there are none, exactly when it raises no error (40_screen.md R121). -/
theorem errorOf_drw (s : State) (x y n : Nibble) :
    errorOf s (.drw x y n) =
      if drwRows s y n = 0 ∨ s.index.toNat + drwRows s y n ≤ 0x1000 then none
      else some (.memoryFault, max s.index.toNat 0x1000) := by
  rw [errorOf, ← ite_not]
  refine if_congr ?_ rfl rfl
  simp only [drwRows, drawnRows]
  omega

/-- Execution, said once: an instruction raises the one error its rule names if its condition holds, and has its
effect otherwise. -/
theorem exec_eq (i : Instr) (s : State) :
    exec i s = .next ((errorOf s i).elim (effect s i) fun e => raised s e.1 e.2) := by
  cases i with
  | ret =>
    rw [errorOf]
    split
    · next hempty => rw [exec_ret_of_empty s hempty, raiseStack_eq_raised]; rfl
    · next hne => exact exec_ret_of_ne s hne
  | call nnn =>
    rw [errorOf]
    split
    · next hfull => rw [exec_call_of_full s nnn hfull, raiseStack_eq_raised]; rfl
    · next hne => exact exec_call_of_ne s nnn hne
  | drw x y n =>
    rw [errorOf_drw]
    split
    · next hin => exact exec_drw_of_le s x y n hin
    · next hout =>
      rw [not_or, Nat.not_le] at hout
      exact exec_drw_of_gt s x y n hout.1 hout.2
  | bcd x =>
    rw [errorOf]
    split
    · next hout => exact exec_bcd_of_gt s x hout
    · next hin => exact exec_bcd_of_le s x (Nat.not_lt.mp hin)
  | stm x =>
    rw [errorOf]
    split
    · next hout => exact exec_stm_of_gt s x hout
    · next hin => exact exec_stm_of_le s x (Nat.not_lt.mp hin)
  | ldm x =>
    rw [errorOf]
    split
    · next hout => exact exec_ldm_of_gt s x hout
    · next hin => exact exec_ldm_of_le s x (Nat.not_lt.mp hin)
  | waitKey x =>
    cases hkey : lowestKey s.keys with
    | some k => rw [exec_waitKey_of_some s x k hkey, ← takeKey_of_some x hkey]; rfl
    | none => rw [exec_waitKey_of_none s x hkey, ← takeKey_of_none x hkey]; rfl
  | _ => rfl

theorem exec_of_error {i : Instr} {s : State} {c : Cause} {a : Nat} (h : errorOf s i = some (c, a)) :
    exec i s = .next (raised s c a) := by
  rw [exec_eq, h, Option.elim_some]

theorem exec_of_no_error {i : Instr} {s : State} (h : errorOf s i = none) : exec i s = .next (effect s i) := by
  rw [exec_eq, h, Option.elim_none]

/-- An answer of an instruction is its error or its effect. -/
theorem exec_next {i : Instr} {s t : State} (h : exec i s = .next t) :
    (∃ c a, errorOf s i = some (c, a) ∧ t = raised s c a) ∨ (errorOf s i = none ∧ t = effect s i) := by
  cases herr : errorOf s i with
  | some e => exact .inl ⟨e.1, e.2, rfl, by simpa [exec_of_error herr] using h.symm⟩
  | none => exact .inr ⟨rfl, by simpa [exec_of_no_error herr] using h.symm⟩

/-- No instruction touches the host's side, the divider, the error latch or the parameters. -/
theorem effect_frame (s : State) (i : Instr) :
    effect s i =
      { s with
        v := (effect s i).v, index := (effect s i).index, pc := (effect s i).pc, sp := (effect s i).sp
        stack := (effect s i).stack, dt := (effect s i).dt, st := (effect s i).st, fb := (effect s i).fb
        mem := (effect s i).mem, randPos := (effect s i).randPos, randIn := (effect s i).randIn
        unknownReport := (effect s i).unknownReport, waiting := (effect s i).waiting } := by
  cases i with
  | waitKey x => rw [effect, takeKey_frame]
  | _ => rfl

/-- Settles O22: the error by `exec_of_error`; the effect leaves the latch as it is. -/
theorem fatalErrorsArePrecise : Obligations.FatalErrorsArePrecise := by
  refine fun i s => ⟨fun c a => exec_of_error, fun herr => ⟨_, exec_of_no_error herr, ?_⟩⟩
  rw [effect_frame]
  exact ⟨rfl, rfl, rfl, rfl⟩

/-- The effect writes no V register outside the table of 10_state.md R22. -/
theorem effect_reg_of_not_writes {s : State} {i : Instr} {r : Nibble} (h : ¬ writes i r) :
    (effect s i).reg r = s.reg r := by
  cases i with
  | ldImm x nn | addImm x nn | mov x y | or x y | and x y | xor x y | getDt x =>
    exact State.reg_setReg_other s x r _ h
  | rnd x nn => exact State.reg_setReg_other s.takeRand x r _ h
  | add x y | sub x y | subn x y | shr x y | shl x y =>
    obtain ⟨hx, hf⟩ := not_or.mp h
    exact State.reg_setRegFlag_other s x _ _ r hx hf
  | drw x y n => exact State.reg_setReg_other (s.setFb _) regF r _ h
  | ldm x =>
    have hlt : ¬ r.toNat < x.toNat + 1 := fun hr => h (Nat.lt_succ_iff.mp hr)
    exact (loadRegs_getElem s.mem (s.dataAddr 0) s.v (x.toNat + 1) r.toNat r.isLt).trans (if_neg hlt)
  | waitKey x =>
    rw [effect]
    cases hkey : lowestKey s.keys with
    | some k => rw [takeKey_of_some x hkey, State.reg_advance, State.reg_setReg_other s x r _ h]
    | none => rw [takeKey_of_none x hkey]; rfl
  | _ => rfl

/-- Settles O23: an error keeps the registers, and so does the effect outside the table's. -/
theorem registersWrittenAsTabled : Obligations.RegistersWrittenAsTabled := by
  intro i s t hexec r hr
  obtain ⟨c, a, -, rfl⟩ | ⟨-, rfl⟩ := exec_next hexec
  · rfl
  · exact effect_reg_of_not_writes hr

/-- No key is pressed exactly when the sampled levels are all 0. -/
theorem lowestKey_eq_none_iff (keys : BitVec 16) : lowestKey keys = none ↔ keys = 0 := by
  rw [lowestKey_none]
  refine ⟨fun h => BitVec.eq_of_getLsbD_eq fun j hj => ?_, fun h j _ => by simp [h]⟩
  simp [h j hj]

/-- The effect moves PC as the table of 10_state.md R25 says. -/
theorem effect_pc (s : State) (i : Instr) : (effect s i).pc = pcAfter s i := by
  cases i with
  | jpV0 nnn =>
    refine BitVec.eq_of_toNat_eq ?_
    have h0 := (s.reg 0).isLt
    have hn := nnn.isLt
    rw [effect, State.setPc_pc, offsetOperand_toNat, pcAfter, BitVec.toNat_ofNat]
    omega
  | seImm x nn => by_cases h : s.reg x = nn <;> simp [effect, pcAfter, h]
  | sneImm x nn => by_cases h : s.reg x = nn <;> simp [effect, pcAfter, h]
  | seReg x y => by_cases h : s.reg x = s.reg y <;> simp [effect, pcAfter, h]
  | sneReg x y => by_cases h : s.reg x = s.reg y <;> simp [effect, pcAfter, h]
  | skp x | sknp x => simp [effect, pcAfter, isKey, keyDown]
  | waitKey x =>
    rw [effect, pcAfter]
    cases hkey : lowestKey s.keys with
    | some k =>
      have hne : s.keys ≠ 0 := fun h0 => by simp [(lowestKey_eq_none_iff _).mpr h0] at hkey
      rw [takeKey_of_some x hkey, if_neg hne]
      rfl
    | none =>
      rw [takeKey_of_none x hkey, if_pos ((lowestKey_eq_none_iff _).mp hkey)]
      rfl
  | _ => rfl

/-- Settles O24: an error leaves PC, and the effect moves it as `effect_pc` says. -/
theorem pcAfterAsTabled : Obligations.PcAfterAsTabled := by
  intro i s t hexec
  obtain ⟨c, a, herr, rfl⟩ | ⟨herr, rfl⟩ := exec_next hexec
  · exact ⟨fun h => absurd (herr.symm.trans h) (by simp), fun _ => rfl⟩
  · exact ⟨fun _ => effect_pc s i, fun h => absurd herr h⟩

/-! Who writes which part of the state (10_state.md sections 2, 4, 5, 6 and 9; 20_memory.md sections 1 and 6). -/

theorem index_writers {s : State} {i : Instr} (h : (effect s i).index ≠ s.index) :
    (∃ nnn, i = .ldI nnn) ∨ (∃ x, i = .addI x) ∨ (∃ x, i = .font x) := by
  cases i with
  | ldI nnn => exact .inl ⟨nnn, rfl⟩
  | addI x => exact .inr (.inl ⟨x, rfl⟩)
  | font x => exact .inr (.inr ⟨x, rfl⟩)
  | _ => simp [effect] at h

theorem mem_writers {s : State} {i : Instr} (h : (effect s i).mem ≠ s.mem) :
    (∃ x, i = .bcd x) ∨ ∃ x, i = .stm x := by
  cases i with
  | bcd x => exact .inl ⟨x, rfl⟩
  | stm x => exact .inr ⟨x, rfl⟩
  | _ => simp [effect] at h

theorem fb_writers {s : State} {i : Instr} (h : (effect s i).fb ≠ s.fb) : i = .cls ∨ ∃ x y n, i = .drw x y n := by
  cases i with
  | cls => exact .inl rfl
  | drw x y n => exact .inr ⟨x, y, n, rfl⟩
  | _ => simp [effect] at h

theorem stack_writers {s : State} {i : Instr} (h : (effect s i).sp ≠ s.sp ∨ (effect s i).stack ≠ s.stack) :
    i = .ret ∨ ∃ nnn, i = .call nnn := by
  cases i with
  | ret => exact .inl rfl
  | call nnn => exact .inr ⟨nnn, rfl⟩
  | _ => simp [effect] at h

theorem dt_writers {s : State} {i : Instr} (h : (effect s i).dt ≠ s.dt) : ∃ x, i = .setDt x := by
  cases i with
  | setDt x => exact ⟨x, rfl⟩
  | _ => simp [effect] at h

theorem st_writers {s : State} {i : Instr} (h : (effect s i).st ≠ s.st) : ∃ x, i = .setSt x := by
  cases i with
  | setSt x => exact ⟨x, rfl⟩
  | _ => simp [effect] at h

theorem rand_takers {s : State} {i : Instr}
    (h : (effect s i).randPos ≠ s.randPos ∨ (effect s i).randIn ≠ s.randIn) : ∃ x nn, i = .rnd x nn := by
  cases i with
  | rnd x nn => exact ⟨x, nn, rfl⟩
  | _ => simp [effect] at h

/-- Settles O25: an error leaves I, and `index_writers` names the instructions whose effect does not. -/
theorem indexWrittenByThree : Obligations.IndexWrittenByThree := by
  intro i s t hexec h
  obtain ⟨c, a, -, rfl⟩ | ⟨-, rfl⟩ := exec_next hexec
  · exact absurd rfl h
  · exact index_writers h

/-- Settles O26: an error leaves both, and `mem_writers` and `fb_writers` name the instructions whose effect does
not. -/
theorem memoryAndScreenWriters : Obligations.MemoryAndScreenWriters := by
  intro i s t hexec
  obtain ⟨c, a, -, rfl⟩ | ⟨-, rfl⟩ := exec_next hexec
  · exact ⟨fun h => absurd rfl h, fun h => absurd rfl h⟩
  · exact ⟨mem_writers, fb_writers⟩

/-- Settles O27: an error leaves all of them, and the four lemmas above name the instructions whose effect does not.
-/
theorem stackTimerRandomWriters : Obligations.StackTimerRandomWriters := by
  intro i s t hexec
  obtain ⟨c, a, -, rfl⟩ | ⟨-, rfl⟩ := exec_next hexec
  · exact ⟨fun h => (h.elim (absurd rfl) (absurd rfl)), fun h => absurd rfl h, fun h => absurd rfl h,
      fun h => h.elim (absurd rfl) (absurd rfl)⟩
  · exact ⟨stack_writers, dt_writers, st_writers, rand_takers⟩

/-- Settles O28: neither an error nor an effect (`effect_frame`) reaches the host's side. -/
theorem hostSideIsUntouched : Obligations.HostSideIsUntouched := by
  intro i s t hexec
  obtain ⟨c, a, -, rfl⟩ | ⟨-, rfl⟩ := exec_next hexec
  · exact ⟨rfl, rfl, rfl, rfl, rfl, rfl, rfl, rfl, rfl⟩
  · rw [effect_frame]
    exact ⟨rfl, rfl, rfl, rfl, rfl, rfl, rfl, rfl, rfl⟩

end Sys2Proof.Machine
end

section
/-! The family 60_exceptions.md: the fetch, the iteration around the instruction (R220), quit (R221), Halted (R211)
and the tick step (R213 to R215). -/

namespace Sys2Proof.Machine

open Sys2Proof.Frame

/-! The fetch (20_memory.md R64, R65). -/

/-- The byte at the lower address is the high one (20_memory.md R65). -/
theorem wordOfBytes_toNat (hi lo : Byte) : (wordOfBytes hi lo).toNat = hi.toNat * 256 + lo.toNat := by
  rw [wordOfBytes, BitVec.toNat_append, ← Nat.shiftLeft_add_eq_or_of_lt lo.isLt, Nat.shiftLeft_eq]

/-- Settles O6: in range by `fetch_in_range`, above by `fetch_out_of_range`. -/
theorem fetchIsBigEndian : Obligations.FetchIsBigEndian :=
  fun _ => ⟨fun hin => ⟨_, fetch_in_range hin, wordOfBytes_toNat _ _⟩, fetch_out_of_range⟩

/-! The iteration, once the host has acted on the inputs. -/

/-- The events that are left are those after the first. -/
theorem Driven.drives_eq {s d : State} (h : Driven s d) : d.drives = s.drives.tail := by
  obtain ⟨hnone, rfl⟩ | ⟨k, q, t, coming, hdrive, rfl⟩ := h
  · rw [hnone]; rfl
  · rw [hdrive]; rfl

/-- Neither the inputs nor the sample changes what is fetched. -/
theorem Driven.fetch_sampled {s d : State} (h : Driven s d) : (sampled d).fetch = s.fetch := by
  rw [h.frame]
  rfl

/-- Without reset, a step is the iteration of the state with the inputs as the host leaves them. -/
theorem step_of_no_reset {s : State} (hp : s.params.ok = true)
    (hreset : ∀ image coming, s.drives ≠ .reset image :: coming) :
    ∃ d, Driven s d ∧ step s = startIteration executeWord d := by
  match hdrives : s.drives with
  | [] => exact ⟨s, .inl ⟨hdrives, rfl⟩, step_of_no_drive hp hdrives⟩
  | .drive k q t :: coming => exact ⟨_, .inr ⟨k, q, t, coming, hdrives, rfl⟩, step_of_drive hp hdrives⟩
  | .reset image :: coming => exact absurd hdrives (hreset image coming)

theorem step_of_reset {s : State} (hp : s.params.ok = true) {image : List Byte} {coming : List HostEvent}
    (hdrives : s.drives = .reset image :: coming) : step s = .next (s.takeReset image coming) := by
  simp [step, iteration, hp, hdrives]

theorem startIteration_of_halted {s : State} (h : s.halted = true) :
    startIteration executeWord s = haltedOutcome s := by
  rw [startIteration, if_pos h]

theorem startIteration_of_quit {s : State} (hh : s.halted = false) (hq : s.quitIn = true) :
    startIteration executeWord s = .next s.quit := by
  simp [startIteration, hh, hq]

theorem driven_of_starts {s d : State} (h : Starts s d) : Driven s d := by
  obtain ⟨-, -, ⟨hnone, -, rfl⟩ | ⟨k, tick, coming, hdrive, rfl⟩⟩ := h
  · exact .inl ⟨hnone, rfl⟩
  · exact .inr ⟨k, false, tick, coming, hdrive, rfl⟩

/-- A step that starts a cycle runs it on the sampled state. -/
theorem step_of_starts {s d : State} (h : Starts s d) : step s = runCycle executeWord (sampled d) := by
  obtain ⟨hp, hh, ⟨hnone, hq, rfl⟩ | ⟨k, tick, coming, hdrive, rfl⟩⟩ := h
  · rw [step_of_no_drive hp hnone]
    exact startIteration_runs hh hq
  · rw [step_of_drive hp hdrive]
    exact startIteration_runs hh rfl

/-- A fetched word is executed, then the iteration ends (30_encoding.md R101). -/
theorem runCycle_of_fetch {s : State} {w : Word} (h : s.fetch = some w) :
    runCycle executeWord s = endIteration (exec (decode w) s) := by
  rw [runCycle, h]
  rfl

theorem runCycle_of_no_fetch {s : State} (h : s.fetch = none) :
    runCycle executeWord s = .next (s.raiseMemory s.pc) := by
  rw [runCycle, h]

/-- Settles O7: the two bytes assemble to the instruction's word, which decodes to it. -/
theorem stepRunsDecodedInstruction : Obligations.StepRunsDecodedInstruction := by
  intro i s d hwf hpc hbytes hstarts
  obtain ⟨hhi, hlo⟩ : s.mem.read s.pc.toNat = highByte (encode i) ∧
      s.mem.read (s.pc.toNat + 1) = lowByte (encode i) := by simpa [encodeBytes] using hbytes
  have hfetch : (sampled d).fetch = some (encode i) := by
    rw [(driven_of_starts hstarts).fetch_sampled, fetch_in_range hpc, hhi, hlo, wordOfBytes_highByte_lowByte]
  have hstep : step s = endIteration (exec i (sampled d)) := by
    rw [step_of_starts hstarts, runCycle_of_fetch hfetch, decode_encode hwf]
  exact ⟨hstep, fun t ht => by rw [hstep, ht, endIteration]⟩

/-- Settles O8: nothing is fetched, and the error is that of the sampled state, whose PC is that of `s`. -/
theorem fetchOutOfRangeRaises : Obligations.FetchOutOfRangeRaises := by
  intro s d hstarts hpc
  have hfetch : (sampled d).fetch = none := by
    rw [(driven_of_starts hstarts).fetch_sampled, fetch_out_of_range hpc]
  rw [step_of_starts hstarts, runCycle_of_no_fetch hfetch, (driven_of_starts hstarts).frame]
  rfl

/-- Settles O9: in both clauses the iteration sees the level 1 on `quit` before it would start a cycle. -/
theorem quitHaltsBeforeTheCycle : Obligations.QuitHaltsBeforeTheCycle := by
  refine fun s hp hh => ⟨fun hnone hq => ?stands, fun k tick coming hdrive => ?driven⟩
  case stands =>
    rw [step_of_no_drive hp hnone, startIteration_of_quit hh hq]
    rfl
  case driven =>
    rw [step_of_drive hp hdrive]
    exact startIteration_of_quit hh rfl

/-- Settles O10: the step is the outcome of the halted machine, whose latch the inputs do not touch. -/
theorem haltedRunsNoCycle : Obligations.HaltedRunsNoCycle := by
  intro s hp hh hreset
  obtain ⟨d, hd, hstep⟩ := step_of_no_reset hp hreset
  have hframe := hd.frame
  have hdh : d.halted = true := by rw [hframe]; exact hh
  have houtcome : step s = haltedOutcome d := by rw [hstep, startIteration_of_halted hdh]
  have herr : d.err = s.err := by rw [hframe]
  have hpc : d.errPc = s.errPc := by rw [hframe]
  have haddr : d.errAddr = s.errAddr := by rw [hframe]
  refine ⟨fun h => ⟨d, ?_, ?_⟩, fun h => ?_, fun h => ?_, fun h => ?_, fun h => ?_⟩
  case refine_2 => rw [← hd.drives_eq]; exact hframe
  all_goals simp [houtcome, haltedOutcome, latchedFault, herr, hpc, haddr, h]

/-- Settles O11: without reset, a halted machine's next state is halted too. -/
theorem onlyResetLeavesHalted : Obligations.OnlyResetLeavesHalted := by
  intro s t hh hstep ht
  obtain ⟨-, hreset | ⟨d, hd, hiter⟩⟩ := step_next hstep
  · exact hreset
  · have hdh : d.halted = true := by rw [hd.frame]; exact hh
    obtain ⟨-, -, rfl⟩ | ⟨hrun, -⟩ | ⟨hrun, -⟩ := startIteration_next hiter
    · exact absurd (ht.symm.trans hdh) Bool.false_ne_true
    · exact absurd (hrun.symm.trans hdh) Bool.false_ne_true
    · exact absurd (hrun.symm.trans hdh) Bool.false_ne_true

/-- Every cycle has a next state (93_implementation_defined.md section 1). -/
theorem runCycle_answers (s : State) : ∃ t, runCycle executeWord s = .next t := by
  cases hfetch : s.fetch with
  | none => exact ⟨_, runCycle_of_no_fetch hfetch⟩
  | some w => exact ⟨_, (runCycle_of_fetch hfetch).trans (by rw [exec_eq, endIteration])⟩

/-- Settles O12: a reset answers, a machine that quit halted stands still, and every cycle answers. -/
theorem stepAlwaysAnswersNext : Obligations.StepAlwaysAnswersNext := by
  intro s hp hnoerr
  by_cases hreset : ∃ image coming, s.drives = .reset image :: coming
  · obtain ⟨image, coming, hdrives⟩ := hreset
    exact ⟨_, step_of_reset hp hdrives⟩
  · obtain ⟨d, hd, hstep⟩ := step_of_no_reset hp fun image coming h => hreset ⟨image, coming, h⟩
    have herr : d.halted = true → d.err = .none := by rw [hd.frame]; exact hnoerr
    rw [hstep]
    cases hh : d.halted with
    | true => exact ⟨d, by simp [startIteration_of_halted hh, haltedOutcome, latchedFault, herr hh]⟩
    | false =>
      cases hq : d.quitIn with
      | true => exact ⟨_, startIteration_of_quit hh hq⟩
      | false => exact startIteration_runs hh hq ▸ runCycle_answers d.sampleKeys

/-! The cycle that raises no error. -/

/-- A cycle after which the machine still runs had the effect of the word it fetched. -/
theorem runCycle_ran {s t : State} (h : runCycle executeWord s = .next t) (ht : t.halted = false) :
    ∃ w, s.fetch = some w ∧ errorOf s (decode w) = none ∧ t = (effect s (decode w)).present.tickStep := by
  obtain ⟨-, rfl⟩ | ⟨w, u, hfetch, hexec, rfl⟩ := runCycle_next h
  · exact Bool.noConfusion ht
  · have hu : u.halted = false := by
      cases hu : u.halted with
      | false => rfl
      | true => rwa [if_pos hu, hu] at ht
    obtain ⟨c, a, -, rfl⟩ | ⟨herr, rfl⟩ := exec_next hexec
    · exact Bool.noConfusion hu
    · exact ⟨w, hfetch, herr, by simp [hu]⟩

/-! The outputs (10_state.md R36, R40, R41; 60_exceptions.md R205). -/

theorem effect_keys (s : State) (i : Instr) : (effect s i).keys = s.keys := by rw [effect_frame]
theorem effect_tickCtr (s : State) (i : Instr) : (effect s i).tickCtr = s.tickCtr := by rw [effect_frame]
theorem effect_params (s : State) (i : Instr) : (effect s i).params = s.params := by rw [effect_frame]

/-- Only the Unknown class reports. -/
theorem effect_unknownReport {s : State} {i : Instr} (h : ∀ w, i ≠ .unknown w) :
    (effect s i).unknownReport = s.unknownReport := by
  cases i with
  | unknown w => exact absurd rfl (h w)
  | _ => simp [effect]

/-- `waiting` is set by a WAIT_KEY that finds no key, and by nothing else. -/
theorem effect_waiting (s : State) (i : Instr) :
    (effect s i).waiting = true ↔ s.waiting = true ∨ ∃ x, i = .waitKey x ∧ s.keys = 0 := by
  cases i with
  | waitKey x =>
    rw [effect, ← lowestKey_eq_none_iff]
    cases hkey : lowestKey s.keys with
    | some k => simp [takeKey_of_some x hkey]
    | none => simp [takeKey_of_none x hkey]
  | _ => simp [effect]

/-- Settles O18: the iteration presents the effect of the word; each output is read off it. -/
theorem iterationPresentsOutputs : Obligations.IterationPresentsOutputs := by
  intro s d t w hstarts hfetch hstep ht
  rw [step_of_starts hstarts] at hstep
  obtain ⟨w', hfetch', herr, rfl⟩ := runCycle_ran hstep ht
  obtain rfl : w' = w := by
    rw [(driven_of_starts hstarts).fetch_sampled, hfetch] at hfetch'
    exact (Option.some.inj hfetch').symm
  have hpc : (sampled d).pc = s.pc := by rw [(driven_of_starts hstarts).frame]; rfl
  refine ⟨?keys, ?report, ?noReport, ?waiting, _, exec_of_no_error herr, ?tone⟩
  case keys =>
    rw [State.tickStep_keys, State.present_keys, effect_keys]
    rfl
  case report =>
    intro hunk
    rw [State.tickStep_unknownReport, State.present_unknownReport, hunk, effect, State.advance_eq,
      State.setPc_unknownReport, State.report_unknownReport, hpc]
  case noReport =>
    intro hdef
    rw [State.tickStep_unknownReport, State.present_unknownReport, effect_unknownReport]
    · rfl
    · intro v hv
      exact hdef ((rowOf_decode_eq_none_iff w').mp (by rw [hv]; rfl))
  case waiting =>
    rw [State.tickStep_waiting, State.present_waiting, effect_waiting]
    simp [sampled]
  case tone => simp

/-! The tick law (60_exceptions.md R213, R214). -/

theorem tickFires_divider {s : State} (h : s.params.tickSource = .divider) :
    s.tickFires = decide (s.params.tickThreshold ≤ s.tickCtr + 1) := by
  simp [State.tickFires, h]

theorem tickFires_external {s : State} (h : s.params.tickSource = .external) : s.tickFires = s.tickIn := by
  simp [State.tickFires, h]

/-- A tick step that fires clears the count, and both timers count down. -/
theorem tickStep_counts_down {s : State} (h : s.tickFires = true) :
    s.tickStep.tickCtr = 0 ∧ s.tickStep.dt.toNat = s.dt.toNat - 1 ∧ s.tickStep.st.toNat = s.st.toNat - 1 := by
  rw [State.tickStep_fires s h]
  exact ⟨rfl, State.countDown_toNat s.dt, State.countDown_toNat s.st⟩

/-- Settles O16: each variant decides whether the tick step fires. -/
theorem tickStepDividesIterations : Obligations.TickStepDividesIterations := by
  refine fun s => ⟨fun hdiv => ⟨fun hge => ?_, fun hlt => ?_⟩, fun hext => ⟨fun hin => ?_, fun hno => ?_⟩,
    State.tickStep_frame s⟩
  · exact tickStep_counts_down (by simpa [tickFires_divider hdiv] using hge)
  · exact State.tickStep_counts s (by simpa [tickFires_divider hdiv] using hlt)
  · exact tickStep_counts_down ((tickFires_external hext).trans hin)
  · exact State.tickStep_counts s ((tickFires_external hext).trans hno)

theorem one_le_tickThreshold {p : Config.Params} (h : p.ok = true) : 1 ≤ p.tickThreshold :=
  decide_eq_true_iff.mp (Bool.and_eq_true_iff.mp h).2

/-- What makes `timer` a timer whose only writer is the instruction `w`: a tick step that fires counts it down, and
neither a tick step that does not, nor another instruction, nor the host touches it. -/
structure TimerOf (w : Nibble → Instr) (timer : State → Byte) : Prop where
  down : ∀ u : State, u.tickFires = true → (timer u.present.tickStep).toNat = (timer u).toNat - 1
  stay : ∀ u : State, u.tickFires = false → timer u.present.tickStep = timer u
  effect : ∀ s i, (∀ x, i ≠ w x) → timer (effect s i) = timer s
  sampled : ∀ s d, Driven s d → timer (sampled d) = timer s

theorem timerOf_dt : TimerOf .setDt State.dt where
  down u hf := (tickStep_counts_down (s := u.present) hf).2.1
  stay u hf := by rw [State.tickStep_counts u.present hf]; rfl
  effect s i h := not_not.mp fun hne => (dt_writers hne).elim h
  sampled s d hd := by rw [hd.frame]; rfl

theorem timerOf_st : TimerOf .setSt State.st where
  down u hf := (tickStep_counts_down (s := u.present) hf).2.2
  stay u hf := by rw [State.tickStep_counts u.present hf]; rfl
  effect s i h := not_not.mp fun hne => (st_writers hne).elim h
  sampled s d hd := by rw [hd.frame]; rfl

/-- One iteration's part of the tick law for one timer. -/
def TicksOnce (timer : State → Byte) (s t : State) : Prop :=
  t.params = s.params ∧ 1 ≤ s.params.tickThreshold ∧
    ((s.params.tickThreshold ≤ s.tickCtr + 1 ∧ t.tickCtr = 0 ∧ (timer t).toNat = (timer s).toNat - 1) ∨
      (s.tickCtr + 1 < s.params.tickThreshold ∧ t.tickCtr = s.tickCtr + 1 ∧ timer t = timer s))

/-- A quiet step has the effect of an instruction that does not write the timer, and ticks. -/
theorem quietStep_ran {w : Nibble → Instr} {s t : State} (h : QuietStep w s t) :
    1 ≤ s.params.tickThreshold ∧
      ∃ d i, Driven s d ∧ (∀ x, i ≠ w x) ∧ t = (effect (sampled d) i).present.tickStep := by
  obtain ⟨hstep, hs, ht, hreset, hquiet⟩ := h
  obtain ⟨hp, ⟨image, coming, hdrives, -⟩ | ⟨d, hd, hiter⟩⟩ := step_next hstep
  · exact absurd hdrives (hreset image coming)
  · refine ⟨one_le_tickThreshold hp, d, ?_⟩
    have hdh : d.halted = false := by rw [hd.frame]; exact hs
    obtain ⟨hh, -⟩ | ⟨-, -, rfl⟩ | ⟨-, -, hcycle⟩ := startIteration_next hiter
    · exact absurd (hdh.symm.trans hh) Bool.false_ne_true
    · exact Bool.noConfusion ht
    · obtain ⟨word, hfetch, -, rfl⟩ := runCycle_ran hcycle ht
      exact ⟨_, hd, hquiet word (hd.fetch_sampled.symm.trans hfetch), rfl⟩

/-- A quiet step ticks once for the timer. -/
theorem quietStep_ticksOnce {w : Nibble → Instr} {timer : State → Byte} (htimer : TimerOf w timer)
    {s t : State} (hdiv : s.params.tickSource = .divider) (h : QuietStep w s t) : TicksOnce timer s t := by
  obtain ⟨hpos, d, i, hd, hi, rfl⟩ := quietStep_ran h
  have hparams : (effect (sampled d) i).params = s.params := by
    rw [effect_params, hd.frame]; rfl
  have hctr : (effect (sampled d) i).tickCtr = s.tickCtr := by
    rw [effect_tickCtr, hd.frame]; rfl
  have hsame : timer (effect (sampled d) i) = timer s := (htimer.effect _ i hi).trans (htimer.sampled s d hd)
  generalize effect (sampled d) i = u at *
  have hfires : u.tickFires = decide (s.params.tickThreshold ≤ s.tickCtr + 1) := by
    rw [tickFires_divider (by rw [hparams, hdiv]), hparams, hctr]
  refine ⟨by simp [hparams], hpos, ?_⟩
  by_cases hge : s.params.tickThreshold ≤ s.tickCtr + 1
  · have hf : u.tickFires = true := by rw [hfires, decide_eq_true hge]
    exact .inl ⟨hge, (tickStep_counts_down (s := u.present) hf).1, by rw [htimer.down u hf, hsame]⟩
  · have hf : u.tickFires = false := by rw [hfires, decide_eq_false hge]
    refine .inr ⟨Nat.not_le.mp hge, ?_, by rw [htimer.stay u hf, hsame]⟩
    rw [State.tickStep_counts u.present hf, ← hctr]
    rfl

/-- The tick law for one timer, from any count below the threshold. -/
theorem quietRun_falls {w : Nibble → Instr} {timer : State → Byte} (htimer : TimerOf w timer) (n : Nat) :
    ∀ {s t : State}, s.params.tickSource = .divider → s.tickCtr ≤ s.params.tickThreshold - 1 → QuietRun w n s t →
      (timer t).toNat = (timer s).toNat - (n + s.tickCtr) / s.params.tickThreshold := by
  induction n with
  | zero =>
    rintro s t - hctr rfl
    have hzero : (0 + s.tickCtr) / s.params.tickThreshold = 0 := by
      rw [Nat.div_eq_zero_iff]
      omega
    rw [hzero, Nat.sub_zero]
  | succ n ih =>
    rintro s t hdiv hctr ⟨u, hstep, hrun⟩
    obtain ⟨hparams, hpos, ⟨hge, hu, hdown⟩ | ⟨hlt, hu, hstay⟩⟩ := quietStep_ticksOnce htimer hdiv hstep
    · have hrest := ih (by rw [hparams, hdiv]) (by omega) hrun
      have hround : n + 1 + s.tickCtr = n + s.params.tickThreshold := by omega
      rw [hrest, hdown, hparams, hu, hround, Nat.add_div_right _ hpos, Nat.add_zero]
      omega
    · have hrest := ih (by rw [hparams, hdiv]) (by rw [hparams]; omega) hrun
      rw [hrest, hstay, hparams, hu, Nat.add_assoc, Nat.add_comm 1]

/-- Settles O17: the tick law of each timer, whose only writer the run excludes. -/
theorem timersFallOncePerThreshold : Obligations.TimersFallOncePerThreshold := by
  intro n s t hdiv hctr
  have hle : s.tickCtr ≤ s.params.tickThreshold - 1 := hctr ▸ Nat.zero_le _
  exact ⟨fun hrun => by simpa [hctr] using quietRun_falls timerOf_dt n hdiv hle hrun,
    fun hrun => by simpa [hctr] using quietRun_falls timerOf_st n hdiv hle hrun⟩

end Sys2Proof.Machine
end

section
/-! The families 20_memory.md and 70_reset_and_hazards.md: one memory, one list (log 10), what reset and load leave
(R240, R243), and the invariant that reset establishes and every step keeps. -/

namespace Sys2Proof.Machine

open Sys2Proof.Frame

/-! The canonical form is unique (20_memory.md R60; log 10). -/

namespace Memory

/-- A listed address differs from one that another memory does not list. -/
theorem read_head_ne {k lo : Nat} {b : Byte} {rest m : Memory} (hm : wfFrom lo ((k, b) :: rest) = true)
    (hn : m.wfFrom (k + 1) = true) : read ((k, b) :: rest) k ≠ m.read k := by
  have hb : b ≠ unlisted k := by simp [wfFrom] at hm; exact hm.1.2
  rw [read_below m (k + 1) k hn (Nat.lt_succ_self k)]
  simpa [read] using hb

/-- Canonical memories that read the same are the same list. -/
theorem eq_of_read_eq (m n : Memory) (lo : Nat) (hm : m.wfFrom lo = true) (hn : n.wfFrom lo = true)
    (hread : ∀ a, a < 0x1000 → m.read a = n.read a) : m = n := by
  induction m generalizing n lo with
  | nil =>
    cases n with
    | nil => rfl
    | cons c rest =>
      obtain ⟨k, b⟩ := c
      have hk : k < 0x1000 := by simp [wfFrom] at hn; exact hn.1.1.2
      exact absurd (hread k hk).symm (read_head_ne hn rfl)
  | cons c rest ih =>
    obtain ⟨k, b⟩ := c
    have hm' := hm
    simp [wfFrom] at hm'
    obtain ⟨⟨⟨-, hk⟩, hb⟩, hrest⟩ := hm'
    cases n with
    | nil => exact absurd (hread k hk) (read_head_ne hm rfl)
    | cons c' rest' =>
      obtain ⟨k', b'⟩ := c'
      have hn' := hn
      simp [wfFrom] at hn'
      obtain ⟨⟨⟨-, hk'⟩, hb'⟩, hrest'⟩ := hn'
      obtain hlt | heq | hgt := Nat.lt_trichotomy k k'
      · have hlater : wfFrom (k + 1) ((k', b') :: rest') = true := by
          simp [wfFrom, hk', hb', hrest']; omega
        exact absurd (hread k hk) (read_head_ne hm hlater)
      · subst heq
        have hbytes : b = b' := by simpa [read] using hread k hk
        rw [hbytes, ih rest' (k + 1) hrest hrest' fun a ha => ?_]
        by_cases hak : a = k
        · rw [hak, read_below rest (k + 1) k hrest (Nat.lt_succ_self k),
            read_below rest' (k + 1) k hrest' (Nat.lt_succ_self k)]
        · simpa [read, Ne.symm hak] using hread a ha
      · have hlater : wfFrom (k' + 1) ((k, b) :: rest) = true := by
          simp [wfFrom, hk, hb, hrest]; omega
        exact absurd (hread k' hk').symm (read_head_ne hn hlater)

end Memory

/-- Settles O21: the entries agree one after the other, since a listed address never reads as an unlisted one. -/
theorem equalReadsEqualMemory : Obligations.EqualReadsEqualMemory :=
  fun m n hm hn hread => Memory.eq_of_read_eq m n 0 hm hn hread

/-! Reset and load (70_reset_and_hazards.md R240, R243). -/

theorem imageFits_iff (image : List Byte) : imageFits image = true ↔ image.length ≤ 3584 := decide_eq_true_iff

/-- Reset with an image that fits. -/
theorem resetWith_of_fits (p : Config.Params) {image : List Byte} (h : imageFits image = true) :
    State.resetWith p image =
      { State.reset with
        params := p
        stack := List.replicate p.stackMax 0
        dt := p.dtReset
        st := p.stReset
        tone := decide (0 < p.stReset.toNat)
        mem := loadedMemory p.font image } := by
  simp only [State.resetWith, h]
  rfl

/-- Reset with an image that does not fit. -/
theorem resetWith_of_too_large (p : Config.Params) {image : List Byte} (h : imageFits image = false) :
    State.resetWith p image =
      { State.reset with
        params := p
        stack := List.replicate p.stackMax 0
        dt := p.dtReset
        st := p.stReset
        tone := decide (0 < p.stReset.toNat)
        mem := zeroMemory
        halted := true
        err := .imageTooLarge } := by
  simp only [State.resetWith, h]
  rfl

/-- What the loader leaves (70_reset_and_hazards.md R243). -/
theorem read_loadedMemory (font : Vector Byte Config.fontBytes) {image : List Byte} (h : image.length ≤ 3584) :
    (∀ (a : Nat) (ha : a < 80), (loadedMemory font image).read a = font[a]) ∧
    (∀ (j : Nat) (hj : j < image.length), (loadedMemory font image).read (0x200 + j) = image[j]) ∧
    ∀ a, 80 ≤ a → (a < 0x200 ∨ 0x200 + image.length ≤ a) → (loadedMemory font image).read a = 0 := by
  have hlen : font.toList.length = 80 := by simp
  obtain ⟨hwf, hfont, hzero⟩ := Memory.writeBytes_spec font.toList [] 0 Memory.wf_nil (by omega)
  obtain ⟨-, himage, hother⟩ := Memory.writeBytes_spec image _ 0x200 hwf (by omega)
  refine ⟨fun a ha => ?_, himage, fun a ha hout => ?_⟩
  · have hread := hfont a (by omega)
    rw [Nat.zero_add] at hread
    rw [loadedMemory, hother a (.inl (by omega)), hread, Vector.getElem_toList]
  · rw [loadedMemory, hother a hout, hzero a (.inr (by omega))]
    exact unlisted_of_le a ha

/-- Settles O14: with an image that fits, memory is the loader's. -/
theorem loadedMemoryContents : Obligations.LoadedMemoryContents := by
  intro p image hlen
  rw [resetWith_of_fits p ((imageFits_iff image).mpr hlen)]
  exact read_loadedMemory p.font hlen

theorem reg_replicate_zero {s : State} (h : s.v = Vector.replicate 16 0) (r : Nibble) : s.reg r = 0 := by
  simp [State.reg, h]

/-- Settles O13: each field of `resetWith`, and of `takeReset` over it, is the listed one. -/
theorem resetReinitialises : Obligations.ResetReinitialises := by
  refine ⟨fun p image hlen => ?load, fun s image coming hp hdrives => ?step⟩
  case load =>
    rw [resetWith_of_fits p ((imageFits_iff image).mpr hlen)]
    exact ⟨reg_replicate_zero rfl, rfl, rfl, rfl, rfl, rfl, rfl, pixel_replicate_zero, rfl, rfl, rfl, rfl, rfl, rfl,
      rfl, decide_eq_true_iff, rfl, rfl, rfl⟩
  case step =>
    refine ⟨_, step_of_reset hp hdrives, rfl, ?_, rfl, rfl, rfl, rfl, rfl, rfl, rfl⟩
    exact ⟨rfl, rfl, rfl, rfl, rfl, rfl, rfl, rfl, rfl, rfl, rfl, rfl, rfl, rfl, rfl, rfl, rfl, rfl, rfl⟩

/-- Settles O15: the image does not fit, so memory is the zeroed array, and the step is that of a halted machine. -/
theorem imageTooLargeHaltsAtLoad : Obligations.ImageTooLargeHaltsAtLoad := by
  intro p image hlen
  have hfits : imageFits image = false := decide_eq_false (Nat.not_le.mpr hlen)
  rw [resetWith_of_too_large p hfits]
  refine ⟨rfl, rfl, rfl, rfl, zeroMemory_spec.2, fun hp => ?_⟩
  rw [step_of_no_drive hp rfl, startIteration_of_halted rfl]
  rfl

/-! The invariant (Safety.lean) at reset. -/

/-- The recommended FONT with the empty image is memory with nothing listed (20_memory.md R66, R67). -/
theorem loadedMemory_reference : loadedMemory Config.reference.font [] = [] := by
  obtain ⟨hfont, -, hzero⟩ := read_loadedMemory Config.reference.font (image := []) (by simp)
  refine Memory.eq_of_read_eq _ _ 0 (wf_loadedMemory _ _ rfl) rfl fun a _ => ?_
  rw [Memory.read]
  by_cases ha : a < 80
  · rw [hfont a ha, unlisted, dif_pos ha]
    rfl
  · rw [hzero a (by omega) (by simp; omega), unlisted_of_le a (by simpa using ha)]

theorem resetWith_mem_wf (p : Config.Params) (image : List Byte) : (State.resetWith p image).mem.wf = true := by
  cases h : imageFits image with
  | true => rw [resetWith_of_fits p h]; exact wf_loadedMemory p.font image h
  | false => rw [resetWith_of_too_large p h]; exact zeroMemory_spec.1

theorem resetWith_latchOk (p : Config.Params) (image : List Byte) : (State.resetWith p image).LatchOk := by
  cases h : imageFits image with
  | true => rw [resetWith_of_fits p h]; exact ⟨fun _ => rfl, fun _ => ⟨rfl, rfl⟩⟩
  | false =>
    rw [resetWith_of_too_large p h]
    exact ⟨fun hrun => Bool.noConfusion hrun, fun hnone => Cause.noConfusion hnone⟩

/-- Every reset and load meets the invariant, an image that does not fit included. -/
theorem resetWith_inv {p : Config.Params} (hp : p.ok = true) (image : List Byte) : (State.resetWith p image).Inv :=
  ⟨hp, resetWith_mem_wf p image, show 0x200 ≤ maxPc by decide, ⟨List.length_replicate, Nat.zero_le _, rfl⟩,
    fun _ => one_le_tickThreshold hp, resetWith_latchOk p image⟩

/-- Settles O20: the reset state is the reset and load of the empty image with the reference parameters. -/
theorem resetHasInv : Obligations.ResetHasInv := by
  have hreset : State.resetWith Config.reference [] = State.reset := by
    rw [resetWith_of_fits Config.reference rfl, loadedMemory_reference]
    rfl
  exact ⟨hreset ▸ resetWith_inv rfl [], hreset, fun p image hp => resetWith_inv hp image⟩

/-! The invariant after a step. -/

/-- A run of in-range stores, or none, keeps the canonical form. -/
theorem effect_mem_wf {s : State} {i : Instr} (hm : s.mem.wf = true) (h : errorOf s i = none) :
    (effect s i).mem.wf = true := by
  cases i with
  | bcd x =>
    have hin : s.dataAddr 0 + (bcdDigits (s.reg x)).length ≤ 0x1000 := by
      simp [errorOf, State.dataAddr, bcdDigits_length] at h ⊢
      omega
    exact (Memory.writeBytes_spec _ _ _ hm hin).1
  | stm x =>
    have hin : s.dataAddr 0 + (x.toNat + 1) ≤ 0x1000 := by
      simp [errorOf, State.dataAddr] at h ⊢
      omega
    exact (storeRegs_spec s.v _ _ _ hm hin).1
  | _ => simpa [effect] using hm

/-- The stack of the invariant, entry by entry. -/
theorem stackOk_iff (s : State) :
    s.StackOk ↔ s.stack.length = s.params.stackMax ∧ s.sp ≤ s.params.stackMax ∧
      ∀ (k : Nat) (h : k < s.stack.length), k < s.sp → s.stack[k].toNat ≤ 0xFFE := by
  refine and_congr_right fun _ => and_congr_right fun _ => ?_
  simp only [List.all_eq_true, decide_eq_true_iff, List.mem_take_iff_getElem]
  refine ⟨fun h k hk hsp => h _ ⟨k, by omega, rfl⟩, ?_⟩
  rintro h _ ⟨k, hk, rfl⟩
  exact h k (by omega) (by omega)

/-- The top entry is one of the valid ones. -/
theorem top_eq_getElem {s : State} (h : s.StackOk) (hne : s.sp ≠ 0) :
    ∃ hlt : s.sp - 1 < s.stack.length, s.top = s.stack[s.sp - 1] := by
  obtain ⟨hlen, hsp, -⟩ := h
  have hlt : s.sp - 1 < s.stack.length := by omega
  exact ⟨hlt, List.getD_eq_getElem _ _ hlt⟩

theorem top_le {s : State} (h : s.StackOk) (hne : s.sp ≠ 0) : s.top.toNat ≤ 0xFFE := by
  obtain ⟨hlt, htop⟩ := top_eq_getElem h hne
  obtain ⟨-, -, hentry⟩ := (stackOk_iff s).mp h
  rw [htop]
  exact hentry _ hlt (by omega)

/-- Two bytes past a fetchable address is a natural-number sum (10_state.md R26; log 13). -/
theorem add_two_toNat {a : Word} (h : a.toNat ≤ 0xFFE) : (a + 2).toNat = a.toNat + 2 := by
  rw [BitVec.toNat_add]
  exact Nat.mod_eq_of_lt (show a.toNat + 2 < 65536 by omega)

/-- Four bytes past a fetchable address is a natural-number sum (10_state.md R26; log 13). -/
theorem add_four_toNat {a : Word} (h : a.toNat ≤ 0xFFE) : (a + 4).toNat = a.toNat + 4 := by
  rw [BitVec.toNat_add]
  exact Nat.mod_eq_of_lt (show a.toNat + 4 < 65536 by omega)

/-- PC stays in its range: a literal, NNN + V0, an entry plus 2, or a fetchable address plus at most 4 (10_state.md
R26). -/
theorem effect_pc_le {s : State} {i : Instr} (hpc : s.pc.toNat ≤ 0xFFE) (hstack : s.StackOk)
    (h : errorOf s i = none) : (effect s i).pc.toNat ≤ 0x10FE := by
  have hnext : (s.pc + 2).toNat ≤ 0x10FE := by rw [add_two_toNat hpc]; omega
  have hskip : (s.pc + 4).toNat ≤ 0x10FE := by rw [add_four_toNat hpc]; omega
  cases i with
  | jp nnn | call nnn =>
    have hn := nnn.isLt
    rw [effect, State.setPc_pc, addrOperand_toNat]
    omega
  | jpV0 nnn =>
    have hn := nnn.isLt
    have h0 := (s.reg 0).isLt
    rw [effect, State.setPc_pc, offsetOperand_toNat]
    omega
  | ret =>
    have htop := top_le hstack (by simpa [errorOf] using h)
    rw [effect, State.setPc_pc, add_two_toNat htop]
    omega
  | seImm x nn | sneImm x nn | seReg x y | sneReg x y | skp x | sknp x =>
    rw [effect_pc, pcAfter]
    split
    · assumption
    · assumption
  | waitKey x =>
    rw [effect_pc, pcAfter]
    split
    · omega
    · exact hnext
  | _ => exact hnext

theorem effect_stackOk_call {s : State} {nnn : Addr12} (hpc : s.pc.toNat ≤ 0xFFE) (hstack : s.StackOk)
    (hfree : s.sp ≠ s.params.stackMax) : (effect s (.call nnn)).StackOk := by
  obtain ⟨hlen, hsp, hentry⟩ := (stackOk_iff s).mp hstack
  refine (stackOk_iff _).mpr ⟨List.length_set.trans hlen, Nat.lt_of_le_of_ne hsp hfree, fun k hk hvalid => ?_⟩
  simp only [effect, State.setPc_stack, State.push_stack, List.getElem_set]
  split
  · exact hpc
  · next hne => exact hentry k _ (Nat.lt_of_le_of_ne (Nat.lt_succ_iff.mp hvalid) (Ne.symm hne))

theorem effect_stackOk_ret {s : State} (hstack : s.StackOk) : (effect s .ret).StackOk := by
  obtain ⟨hlen, hsp, hentry⟩ := (stackOk_iff s).mp hstack
  exact (stackOk_iff _).mpr ⟨hlen, (Nat.sub_le _ _).trans hsp,
    fun k hk hvalid => hentry k hk (Nat.lt_of_lt_of_le hvalid (Nat.sub_le _ _))⟩

/-- The stack keeps its depth and its entries (10_state.md R27, R28). -/
theorem effect_stackOk {s : State} {i : Instr} (hpc : s.pc.toNat ≤ 0xFFE) (hstack : s.StackOk)
    (h : errorOf s i = none) : (effect s i).StackOk := by
  by_cases hwrites : (effect s i).sp ≠ s.sp ∨ (effect s i).stack ≠ s.stack
  · obtain rfl | ⟨nnn, rfl⟩ := stack_writers hwrites
    · exact effect_stackOk_ret hstack
    · exact effect_stackOk_call hpc hstack (by simpa [errorOf] using h)
  · obtain ⟨hsp, hslots⟩ := not_or.mp hwrites
    rwa [State.StackOk, not_not.mp hsp, not_not.mp hslots, effect_params]

/-- The latch of a fatal error has the form the invariant asks, and nothing else changed. -/
theorem raised_inv {s : State} {c : Cause} {a : Nat} (hc : c ≠ .none) (h : s.Inv) : (raised s c a).Inv := by
  obtain ⟨hp, hm, hpc, hstack, htick, -⟩ := h
  exact ⟨hp, hm, hpc, hstack, htick, fun hrun => Bool.noConfusion hrun, fun hnone => absurd hnone hc⟩

theorem errorOf_ne_none {s : State} {i : Instr} {c : Cause} {a : Nat} (h : errorOf s i = some (c, a)) :
    c ≠ .none := by
  rintro rfl
  cases i <;> simp [errorOf] at h

/-- An instruction keeps the invariant when its address can be fetched from. -/
theorem exec_inv {i : Instr} {s t : State} (hpc : s.pc.toNat ≤ 0xFFE) (h : s.Inv) (hexec : exec i s = .next t) :
    t.Inv := by
  obtain ⟨c, a, herr, rfl⟩ | ⟨herr, rfl⟩ := exec_next hexec
  · exact raised_inv (errorOf_ne_none herr) h
  · obtain ⟨hp, hm, -, hstack, htick, hlatch⟩ := h
    have hframe := effect_frame s i
    refine ⟨by rwa [effect_params], effect_mem_wf hm herr, effect_pc_le hpc hstack herr,
      effect_stackOk hpc hstack herr, ?tick, ?latch⟩
    case tick => rwa [State.TickOk, effect_params, effect_tickCtr]
    case latch =>
      rw [hframe]
      exact hlatch

/-- The tick step keeps the invariant: the count is cleared where it would reach the threshold (10_state.md R33). -/
theorem tickStep_inv {s : State} (h : s.Inv) : s.tickStep.Inv := by
  obtain ⟨hp, hm, hpc, hstack, htick, hlatch⟩ := h
  cases hf : s.tickFires with
  | true =>
    rw [State.tickStep_fires s hf]
    exact ⟨hp, hm, hpc, hstack, fun _ => one_le_tickThreshold hp, hlatch⟩
  | false =>
    rw [State.tickStep_counts s hf]
    refine ⟨hp, hm, hpc, hstack, fun hdiv => ?_, hlatch⟩
    rw [tickFires_divider (s := s) hdiv, decide_eq_false_iff_not] at hf
    exact Nat.not_le.mp hf

/-- A cycle keeps the invariant. -/
theorem runCycle_inv {s t : State} (h : s.Inv) (hcycle : runCycle executeWord s = .next t) : t.Inv := by
  obtain ⟨-, rfl⟩ | ⟨w, u, hfetch, hexec, rfl⟩ := runCycle_next hcycle
  · exact raised_inv (by decide) h
  · have hpc : s.pc.toNat ≤ 0xFFE := by
      by_contra hout
      rw [fetch_out_of_range (Nat.not_le.mp hout)] at hfetch
      cases hfetch
    have hu : u.Inv := exec_inv hpc h hexec
    split
    · exact hu
    · exact tickStep_inv (s := u.present) hu

/-- Settles O19: reset establishes the invariant, the inputs and quit do not touch it, and a cycle keeps it. -/
theorem stepKeepsInv : Obligations.StepKeepsInv := by
  intro s t hinv hstep
  obtain ⟨hp, ⟨image, coming, -, rfl⟩ | ⟨d, hd, hiter⟩⟩ := step_next hstep
  · exact resetWith_inv hp image
  · have hdinv : d.Inv := by rw [hd.frame]; exact hinv
    obtain ⟨-, -, rfl⟩ | ⟨hrun, -, rfl⟩ | ⟨-, -, hcycle⟩ := startIteration_next hiter
    · exact hdinv
    · obtain ⟨hp, hm, hpc, hstack, htick, hlatch⟩ := hdinv
      exact ⟨hp, hm, hpc, hstack, htick, fun hh => Bool.noConfusion hh, hlatch.2⟩
    · exact runCycle_inv (s := d.sampleKeys) hdinv hcycle

end Sys2Proof.Machine
end

section
/-! The family 40_screen.md, continued: DRW pixel by pixel (R121, R122), and the framebuffer output (10_state.md
R40). -/

namespace Sys2Proof.Machine

open Sys2Proof.Frame

/-! The set, unclipped bits of a sprite. -/

section
variable {s t : State} {x y n : Nibble}

/-- A set, unclipped sprite bit stands in a drawn row, at a set column of that sprite row. -/
theorem spriteBit_eq (cx cy : Nat) :
    spriteBit s x y n cx cy =
      (decide ((s.reg y).toNat % 32 ≤ cy ∧ cy < (s.reg y).toNat % 32 + drwRows s y n) &&
        (spriteRow ((s.reg x).toNat % 64) (s.mem.read (s.dataAddr 0 + (cy - (s.reg y).toNat % 32)))).getLsbD cx) := by
  have hrow : decide ((s.reg y).toNat % 32 ≤ cy ∧ cy < (s.reg y).toNat % 32 + drwRows s y n) =
      (decide ((s.reg y).toNat % 32 ≤ cy) && decide (cy < (s.reg y).toNat % 32 + n.toNat) && decide (cy ≤ 31)) := by
    rw [← Bool.decide_and, ← Bool.decide_and, decide_eq_decide]
    simp only [drwRows, drawnRows]
    omega
  have hcol : decide (cx < 64) = decide (cx ≤ 63) := decide_eq_decide.mpr (by omega)
  rw [hrow, spriteRow_getLsbD, hcol, spriteBit]
  simp only [State.dataAddr, Nat.add_zero]
  ac_rfl

/-- No bit of a sprite falls outside the screen (40_screen.md R121). -/
theorem le_of_spriteBit {cx cy : Nat} (h : spriteBit s x y n cx cy = true) : cx ≤ 63 ∧ cy ≤ 31 := by
  simp only [spriteBit, Bool.and_eq_true, decide_eq_true_iff] at h
  obtain ⟨⟨⟨⟨⟨-, hcy⟩, -⟩, -⟩, hcx⟩, -⟩ := h
  exact ⟨hcx, hcy⟩

/-- The sprite and its position depend on memory, I and the start coordinates alone. -/
theorem spriteBit_congr (hmem : t.mem = s.mem) (hindex : t.index = s.index)
    (hx : (t.reg x).toNat % 64 = (s.reg x).toNat % 64) (hy : (t.reg y).toNat % 32 = (s.reg y).toNat % 32)
    (cx cy : Nat) : spriteBit t x y n cx cy = spriteBit s x y n cx cy := by
  simp only [spriteBit, State.dataAddr, hmem, hindex, hx, hy]

theorem drwRows_le : (s.reg y).toNat % 32 + drwRows s y n ≤ 32 :=
  drawnRows_le _ _ (Nat.mod_lt _ (by decide))

/-- DRW flips the pixels under the set, unclipped sprite bits (40_screen.md R121). -/
theorem pixel_drwDrawn (cx cy : Nat) :
    pixel (drwDrawn s x y n).1 cx cy = (pixel s.fb cx cy ^^ spriteBit s x y n cx cy) := by
  rw [spriteBit_eq, pixel, drwDrawn, fbRow_drawRows _ _ _ _ _ _ _ drwRows_le, pixel]
  split
  · next hdrawn => rw [decide_eq_true hdrawn, Bool.true_and, BitVec.getLsbD_xor]
  · next hother => rw [decide_eq_false hother, Bool.false_and, Bool.xor_false]

/-- DRW reports a collision exactly when a set, unclipped sprite bit falls on a pixel that is on (40_screen.md
R121). -/
theorem drwDrawn_hit_iff :
    (drwDrawn s x y n).2 = true ↔ ∃ cx cy, spriteBit s x y n cx cy = true ∧ pixel s.fb cx cy = true := by
  rw [drwDrawn, drawRows_hit _ _ _ _ _ _ drwRows_le]
  constructor
  · rintro ⟨r, hr, cx, -, hpixel, hsprite⟩
    refine ⟨cx, (s.reg y).toNat % 32 + r, ?_, hpixel⟩
    rw [spriteBit_eq, Nat.add_sub_cancel_left, hsprite, decide_eq_true ⟨by omega, by omega⟩]
    rfl
  · rintro ⟨cx, cy, hbit, hpixel⟩
    obtain ⟨hcx, -⟩ := le_of_spriteBit hbit
    rw [spriteBit_eq, Bool.and_eq_true, decide_eq_true_iff] at hbit
    obtain ⟨⟨hfirst, hlast⟩, hsprite⟩ := hbit
    exact ⟨cy - (s.reg y).toNat % 32, by omega, cx, by omega, by rwa [Nat.add_sub_cancel' hfirst], hsprite⟩

end

/-- Framebuffers with the same pixels are the same. -/
theorem framebuffer_ext {f g : Framebuffer} (h : ∀ cx cy, cx ≤ 63 → cy ≤ 31 → pixel f cx cy = pixel g cx cy) :
    f = g := by
  refine Vector.ext fun cy hcy => BitVec.eq_of_getLsbD_eq fun cx hcx => ?_
  simpa [pixel, fbRow, hcy] using h cx cy (by omega) (by omega)

theorem collisionFlag_eq_one_iff (hit : Bool) : collisionFlag hit = 1 ↔ hit = true := by
  cases hit <;> decide

theorem collisionFlag_eq_zero_iff (hit : Bool) : collisionFlag hit = 0 ↔ hit ≠ true := by
  cases hit <;> decide

/-- VF after DRW is the collision flag. -/
theorem effect_drw_regF (s : State) (x y n : Nibble) :
    (effect s (.drw x y n)).reg 15 = collisionFlag (drwDrawn s x y n).2 := reg_setReg_advance (s.setFb _) regF _

/-- The framebuffer after DRW. -/
theorem effect_drw_fb (s : State) (x y n : Nibble) : (effect s (.drw x y n)).fb = (drwDrawn s x y n).1 := rfl

/-- Settles O30: the successor is DRW's effect, whose pixels are those of `pixel_drwDrawn` and whose VF is the flag
of `drwDrawn_hit_iff`. -/
theorem drwFlipsSpritePixels : Obligations.DrwFlipsSpritePixels := by
  intro x y n s herr
  refine ⟨_, exec_of_no_error herr, fun cx cy _ _ => pixel_drwDrawn cx cy, ?hit, ?miss, rfl, ?regs, rfl, ?memory⟩
  case hit =>
    intro hhit
    rwa [effect_drw_regF, collisionFlag_eq_one_iff, drwDrawn_hit_iff]
  case miss =>
    intro hmiss
    rwa [effect_drw_regF, collisionFlag_eq_zero_iff, ne_eq, drwDrawn_hit_iff]
  case regs => exact fun r hr => effect_reg_of_not_writes (List.ne_of_not_mem_cons hr)
  case memory => exact sameMemory_of_mem_eq rfl

/-- Settles O31: the second draw has the sprite bits of the first, so each pixel is flipped twice, and it collides
where the first one turned a pixel on. -/
theorem drwTwiceRestoresScreen : Obligations.DrwTwiceRestoresScreen := by
  intro x y n s t herr hexec hx hy
  obtain rfl : effect s (.drw x y n) = t := by simpa [exec_of_no_error herr] using hexec
  have hbits := spriteBit_congr (s := s) (t := effect s (.drw x y n)) (n := n) rfl rfl hx hy
  have herr' : errorOf (effect s (.drw x y n)) (.drw x y n) = none := by
    rw [← herr]
    simp only [errorOf, hy]
    rfl
  refine ⟨_, exec_of_no_error herr', ?screen, ?flag, ?bit⟩
  case screen =>
    refine framebuffer_ext fun cx cy _ _ => ?_
    rw [effect_drw_fb, pixel_drwDrawn, hbits, effect_drw_fb, pixel_drwDrawn, Bool.xor_assoc, Bool.xor_self,
      Bool.xor_false]
  case flag =>
    rw [effect_drw_regF, collisionFlag_eq_one_iff, drwDrawn_hit_iff]
    refine exists_congr fun cx => exists_congr fun cy => ?_
    rw [hbits, effect_drw_fb, pixel_drwDrawn]
    refine and_congr_right fun hbit => ?_
    rw [hbit, Bool.xor_true, Bool.not_eq_true']
  case bit =>
    rw [effect_drw_regF, collisionFlag_eq_zero_iff, collisionFlag_eq_one_iff]
    exact (em _).symm

/-- Settles O32: the two conditions are those of DRW's error. -/
theorem drwOutOfRangeRaises : Obligations.DrwOutOfRangeRaises :=
  fun _ _ _ _ hrows hout => exec_of_error (if_pos ⟨hrows, hout⟩)

/-- The rows joined, the first one lowest. -/
def joinRows (rows : List (BitVec 64)) : BitVec 2048 :=
  rows.foldr (fun row rest => (rest <<< 64) ||| row.setWidth 2048) 0

theorem fbOut_eq_joinRows (s : State) : s.fbOut = joinRows s.fb.toList := rfl

theorem joinRows_cons (row : BitVec 64) (rows : List (BitVec 64)) :
    joinRows (row :: rows) = (joinRows rows <<< 64) ||| row.setWidth 2048 := rfl

/-- Row `y` stands at the bits from 64 * y on. -/
theorem getLsbD_joinRows (rows : List (BitVec 64)) (x y : Nat) (hx : x < 64) (hy : y < rows.length)
    (hbit : y * 64 + x < 2048) : (joinRows rows).getLsbD (y * 64 + x) = rows[y].getLsbD x := by
  induction rows generalizing y with
  | nil => exact absurd hy (Nat.not_lt_zero _)
  | cons row rows ih =>
    rw [joinRows_cons, BitVec.getLsbD_or, BitVec.getLsbD_shiftLeft, BitVec.getLsbD_setWidth]
    cases y with
    | zero => simp [hx, show x < 2048 by omega]
    | succ y =>
      have hy' : y < rows.length := by simpa using hy
      rw [show (y + 1) * 64 + x - 64 = y * 64 + x by omega, ih y hy' (by omega),
        BitVec.getLsbD_of_ge row _ (by omega)]
      simp [hbit, show ¬ (y + 1) * 64 + x < 64 by omega]

/-- Settles O60: `fb_out` joins the rows, and row y of the screen is row y of the list. -/
theorem fbOutCarriesFramebuffer : Obligations.FbOutCarriesFramebuffer := by
  intro s x y hx hy
  have hrow : y < s.fb.toList.length := by rw [Vector.length_toList]; omega
  rw [fbOut_eq_joinRows, getLsbD_joinRows _ x y (by omega) hrow (by omega), Vector.getElem_toList, pixel, fbRow,
    dif_pos (by omega)]

end Sys2Proof.Machine
end

section
/-! The families 41_flow.md and 42_skip.md, continued: JP_V0, CALL and RET (R131, R133, R134), SE_REG and SNE_REG
(R143, R144). -/

namespace Sys2Proof.Machine

open Sys2Proof.Frame

/-- Settles O34: the successor is the effect, whose PC is the natural-number sum. -/
theorem jpV0JumpsToSum : Obligations.JpV0JumpsToSum :=
  fun nnn s => ⟨decode_encode (i := .jpV0 nnn) rfl, _, exec_of_no_error (i := .jpV0 nnn) rfl,
    offsetOperand_toNat nnn (s.reg 0), onlyPc_setPc s _⟩

theorem errorOf_call_of_ne {s : State} (nnn : Addr12) (h : s.sp ≠ s.params.stackMax) :
    errorOf s (.call nnn) = none := if_neg h

theorem errorOf_ret_of_ne {s : State} (h : s.sp ≠ 0) : errorOf s .ret = none := if_neg h

/-- The free slot of the stack of the invariant. -/
theorem sp_lt_length {s : State} (hstack : s.StackOk) (hfree : s.sp ≠ s.params.stackMax) :
    s.sp < s.stack.length := by
  obtain ⟨hlen, hsp, -⟩ := hstack
  omega

/-- Settles O35: below STACK_MAX the slot at SP is written, at STACK_MAX the error is raised. -/
theorem callPushesOwnAddress : Obligations.CallPushesOwnAddress := by
  refine fun nnn s => ⟨decode_encode (i := .call nnn) rfl, fun hstack hfree => ?push,
    fun hfull => exec_of_error (if_pos hfull)⟩
  case push =>
    refine ⟨_, exec_of_no_error (errorOf_call_of_ne nnn hfree), rfl, ?_, fun k hk => ?_, addrOperand_toNat nnn, rfl,
      sameMemory_of_mem_eq rfl⟩
    · exact List.getElem?_set_self (sp_lt_length hstack hfree)
    · exact List.getElem?_set_ne (Ne.symm hk)

/-- Settles O36: the entry popped is the top one. -/
theorem retReturnsPastCall : Obligations.RetReturnsPastCall := by
  refine ⟨decode_encode (i := .ret) rfl, fun s => ⟨fun hstack hne => ?pop,
    fun hempty => exec_of_error (if_pos hempty)⟩⟩
  case pop =>
    obtain ⟨hlt, htop⟩ := top_eq_getElem hstack hne
    refine ⟨s.top, _, ?_, exec_of_no_error (errorOf_ret_of_ne hne), rfl, rfl, rfl, sameMemory_of_mem_eq rfl⟩
    rw [htop, List.getElem?_eq_getElem hlt]

/-- Right after a CALL the top entry is its own address. -/
theorem top_effect_call {s : State} (nnn : Addr12) (h : s.sp < s.stack.length) :
    (effect s (.call nnn)).top = s.pc := by
  simp [effect, State.top, List.getD, h]

/-- Settles O37: RET pops the address that CALL pushed on the free slot, above the valid entries. -/
theorem callThenRetRoundTrip : Obligations.CallThenRetRoundTrip := by
  intro nnn s hstack hfree hpc
  refine ⟨_, _, exec_of_no_error (errorOf_call_of_ne nnn hfree),
    exec_of_no_error (errorOf_ret_of_ne (Nat.succ_ne_zero _)), ?pc, rfl, ?entries, ?stack, rfl, rfl⟩
  case pc =>
    rw [effect_pc, pcAfter]
    change ((effect s (.call nnn)).top + 2).toNat = _
    rw [top_effect_call nnn (sp_lt_length hstack hfree), add_two_toNat hpc]
  case entries => exact List.take_set_of_le (Nat.le_refl _)
  case stack => exact effect_stackOk_ret (effect_stackOk_call hpc hstack hfree)

/-- Settles O39: a minor opcode that is not 0 selects no row; the skips are those of `effect_pc`. -/
theorem skipsOnRegisters : Obligations.SkipsOnRegisters := by
  refine ⟨fun x y n hn => ?unknown, fun x y s => ⟨decode_encode (i := .seReg x y) rfl,
    decode_encode (i := .sneReg x y) rfl, ?seReg, ?sneReg⟩⟩
  case unknown =>
    change decode (encodeRegReg 0x5 x y n) = .unknown (encodeRegReg 0x5 x y n) ∧
      decode (encodeRegReg 0x9 x y n) = .unknown (encodeRegReg 0x9 x y n)
    have hn' : n ≠ 0#4 := hn
    simp [decode, hn']
  case seReg =>
    exact ⟨_, exec_of_no_error (i := .seReg x y) rfl, onlyPc_skipIf s _,
      fun heq => skipIf_pc_of_true (beq_iff_eq.mpr heq),
      fun hne => skipIf_pc_of_false (beq_eq_false_iff_ne.mpr hne)⟩
  case sneReg =>
    exact ⟨_, exec_of_no_error (i := .sneReg x y) rfl, onlyPc_skipIf s _,
      fun hne => skipIf_pc_of_true (bne_iff_ne.mpr hne),
      fun heq => skipIf_pc_of_false (bne_eq_false_iff_eq.mpr heq)⟩

end Sys2Proof.Machine
end

section
/-! The family 43_alu.md, continued: OR (R154), the flag-writing instructions (R156, R158 to R162) and RND (R165).
-/

namespace Sys2Proof.Machine

open Sys2Proof.Frame

/-- Settles O42: the successor writes V[X] once and advances, bit by bit. -/
theorem orBitwise : Obligations.OrBitwise := by
  refine fun x y s => ⟨decode_encode (i := .or x y) rfl, _, exec_of_no_error (i := .or x y) rfl, fun k => ?bits,
    setReg_advance_pc s x _, onlyRegs_setReg_advance s x _⟩
  case bits => rw [effect, reg_setReg_advance, BitVec.getLsbD_or]

/-! Writing a result and the flag, and advancing. -/

section
variable (s : State) (x : Nibble) (r f : Byte)

theorem reg_setRegFlag_advance_dest (h : x ≠ 15) : (s.setRegFlag x r f).advance.reg x = r :=
  State.reg_setRegFlag_dest s x r f h

theorem reg_setRegFlag_advance_flag : (s.setRegFlag x r f).advance.reg 15 = f := State.reg_setRegFlag_flag s x r f

/-- Nothing but V[X], VF and PC changes. -/
theorem onlyRegs_setRegFlag_advance : OnlyRegs s (s.setRegFlag x r f).advance [x, 15] := by
  refine ⟨fun k hk => ?otherRegs, rfl, sameMemory_of_mem_eq rfl⟩
  case otherRegs =>
    rw [List.mem_cons, List.mem_singleton, not_or] at hk
    exact State.reg_setRegFlag_other s x r f k hk.1 hk.2

end

theorem flag_decide (p : Prop) [Decidable p] : flag (decide p) = if p then 1 else 0 := by
  simp [flag]

theorem flag_toNat (c : Bool) : (flag c).toNat = c.toNat := by
  cases c <;> rfl

/-- The difference modulo 256, as a natural number. -/
theorem byte_sub_toNat (a b : Byte) : (a - b).toNat = (a.toNat + 256 - b.toNat) % 256 := by
  have hb := b.isLt
  rw [BitVec.toNat_sub]
  omega

/-- Settles O43: the sum of two bytes is taken modulo 256, and the flag is the carry. -/
theorem addSetsCarry : Obligations.AddSetsCarry := by
  refine fun x y s => ⟨decode_encode (i := .add x y) rfl, _, exec_of_no_error (i := .add x y) rfl, fun hx => ?sum,
    ?carry, rfl, onlyRegs_setRegFlag_advance s x _ _⟩
  case sum => rw [effect, reg_setRegFlag_advance_dest _ _ _ _ hx, BitVec.toNat_add]
  case carry => rw [effect, reg_setRegFlag_advance_flag, carryFlag, flag_decide]

/-- Settles O44: the difference of two bytes is taken modulo 256, and the flag is the not-borrow. -/
theorem subtractsSetNotBorrow : Obligations.SubtractsSetNotBorrow := by
  refine fun x y s => ⟨decode_encode (i := .sub x y) rfl, decode_encode (i := .subn x y) rfl,
    ⟨_, exec_of_no_error (i := .sub x y) rfl, fun hx => ?sub, ?subFlag, rfl, onlyRegs_setRegFlag_advance s x _ _⟩,
    ⟨_, exec_of_no_error (i := .subn x y) rfl, fun hx => ?subn, ?subnFlag, rfl, onlyRegs_setRegFlag_advance s x _ _⟩⟩
  case sub | subn => rw [effect, reg_setRegFlag_advance_dest _ _ _ _ hx, byte_sub_toNat]
  case subFlag | subnFlag => rw [effect, reg_setRegFlag_advance_flag, notBorrowFlag, flag_decide]

/-- The bit SHR shifts out is the remainder (43_alu.md R160). -/
theorem shiftedOutLow_toNat (b : Byte) : (shiftedOutLow b).toNat = b.toNat % 2 := by
  rw [shiftedOutLow, flag_toNat, BitVec.getLsbD, Nat.toNat_testBit, Nat.pow_zero, Nat.div_one]

/-- The bit SHL shifts out is the quotient by 128 (43_alu.md R162). -/
theorem shiftedOutHigh_toNat (b : Byte) : (shiftedOutHigh b).toNat = b.toNat / 128 := by
  have hb := b.isLt
  rw [shiftedOutHigh, flag_toNat, BitVec.getLsbD, Nat.toNat_testBit]
  omega

/-- Settles O45: a shift by one halves or doubles, and the flag is the bit shifted out. -/
theorem shiftsSetShiftedBit : Obligations.ShiftsSetShiftedBit := by
  refine fun x y s => ⟨decode_encode (i := .shr x y) rfl, decode_encode (i := .shl x y) rfl,
    ⟨_, exec_of_no_error (i := .shr x y) rfl, fun hx => ?shr, ?shrFlag, rfl, onlyRegs_setRegFlag_advance s x _ _⟩,
    ⟨_, exec_of_no_error (i := .shl x y) rfl, fun hx => ?shl, ?shlFlag, rfl, onlyRegs_setRegFlag_advance s x _ _⟩⟩
  case shr =>
    rw [effect, reg_setRegFlag_advance_dest _ _ _ _ hx, BitVec.toNat_ushiftRight, Nat.shiftRight_one]
  case shl =>
    rw [effect, reg_setRegFlag_advance_dest _ _ _ _ hx, BitVec.toNat_shiftLeft, Nat.shiftLeft_eq]
  case shrFlag => rw [effect, reg_setRegFlag_advance_flag, shiftedOutLow_toNat]
  case shlFlag => rw [effect, reg_setRegFlag_advance_flag, shiftedOutHigh_toNat]

theorem randByte_of_queued {s : State} {b : Byte} {rest : List Byte} (h : s.randIn = b :: rest) :
    s.randByte = b := by
  rw [State.randByte, h]

theorem randByte_of_free {s : State} (h : s.randIn = []) : s.randByte = Config.randByte s.runNo s.randPos := by
  rw [State.randByte, h]

/-- Settles O46: the byte drawn is the queued one if there is one, and it is used up. -/
theorem rndMasksOneDraw : Obligations.RndMasksOneDraw := by
  refine fun x nn s => ⟨decode_encode (i := .rnd x nn) rfl, _, exec_of_no_error (i := .rnd x nn) rfl,
    fun b rest hqueue => ?queued, fun hfree => ?free, rfl, rfl, ?regs, rfl, sameMemory_of_mem_eq rfl⟩
  case queued =>
    rw [effect, reg_setReg_advance, randByte_of_queued hqueue]
    exact ⟨rfl, congrArg List.tail hqueue⟩
  case free =>
    rw [effect, reg_setReg_advance, randByte_of_free hfree]
    exact ⟨rfl, congrArg List.tail hfree⟩
  case regs => exact fun r hr => effect_reg_of_not_writes (List.ne_of_not_mem_cons hr)

end Sys2Proof.Machine
end

section
/-! The family 44_index_memory.md, continued: ADD_I (R171), BCD, STM and LDM (R173 to R175, R177). -/

namespace Sys2Proof.Machine

open Sys2Proof.Frame

/-- Settles O48: the sum of two words is taken modulo 65536. -/
theorem addIWrapsIndex : Obligations.AddIWrapsIndex := by
  refine fun x s => ⟨decode_encode (i := .addI x) rfl, _, exec_of_no_error (i := .addI x) rfl, ?sum,
    setIndex_advance_pc s _, onlyIndex_setIndex_advance s _⟩
  case sum =>
    rw [effect, setIndex_advance_index, indexSum, BitVec.toNat_add, BitVec.toNat_setWidth_of_le (by decide)]

theorem errorOf_bcd_of_le {s : State} (x : Nibble) (h : s.index.toNat + 2 ≤ 0xFFF) : errorOf s (.bcd x) = none :=
  if_neg (Nat.not_lt.mpr h)

theorem errorOf_stm_of_le {s : State} {x : Nibble} (h : s.index.toNat + x.toNat ≤ 0xFFF) :
    errorOf s (.stm x) = none := if_neg (Nat.not_lt.mpr h)

theorem errorOf_ldm_of_le {s : State} {x : Nibble} (h : s.index.toNat + x.toNat ≤ 0xFFF) :
    errorOf s (.ldm x) = none := if_neg (Nat.not_lt.mpr h)

/-- Settles O49: the three digits are stored from I upward, and each fits a byte. -/
theorem bcdStoresDigits : Obligations.BcdStoresDigits := by
  refine fun x s => ⟨decode_encode (i := .bcd x) rfl, fun hm hin => ?_⟩
  have hb := (s.reg x).isLt
  have hrange : s.dataAddr 0 + (bcdDigits (s.reg x)).length ≤ 0x1000 := by
    rw [State.dataAddr, bcdDigits_length]
    omega
  obtain ⟨-, hdigit, hother⟩ := Memory.writeBytes_spec _ _ _ hm hrange
  refine ⟨_, exec_of_no_error (errorOf_bcd_of_le x hin), ?hundreds, ?tens, ?ones, rfl, rfl, hother⟩
  case hundreds => exact (congrArg BitVec.toNat (hdigit 0 (show 0 < 3 by decide))).trans (Nat.mod_eq_of_lt (by omega))
  case tens => exact (congrArg BitVec.toNat (hdigit 1 (show 1 < 3 by decide))).trans (Nat.mod_eq_of_lt (by omega))
  case ones => exact (congrArg BitVec.toNat (hdigit 2 (show 2 < 3 by decide))).trans (Nat.mod_eq_of_lt (by omega))

theorem regAt_toNat (s : State) (r : Nibble) : regAt s.v r.toNat = s.reg r := dif_pos r.isLt

/-- Settles O50: the bytes stored from I upward are the registers in order. -/
theorem stmStoresRegisters : Obligations.StmStoresRegisters := by
  refine fun x s => ⟨decode_encode (i := .stm x) rfl, fun hm hin => ?_⟩
  have hrange : s.dataAddr 0 + (x.toNat + 1) ≤ 0x1000 := by
    rw [State.dataAddr]
    omega
  obtain ⟨-, hreg, hother⟩ := storeRegs_spec s.v _ _ _ hm hrange
  refine ⟨_, exec_of_no_error (errorOf_stm_of_le hin), fun r hr => ?_, rfl, rfl, hother⟩
  exact (hreg r.toNat (Nat.lt_succ_of_le hr)).trans (regAt_toNat s r)

/-- Settles O51: register r is loaded from I + r when it is one of the first X + 1, and stands otherwise. -/
theorem ldmLoadsRegisters : Obligations.LdmLoadsRegisters := by
  refine fun x s => ⟨decode_encode (i := .ldm x) rfl, fun hin => ?_⟩
  have hreg (r : Nibble) := loadRegs_getElem s.mem (s.dataAddr 0) s.v (x.toNat + 1) r.toNat r.isLt
  refine ⟨_, exec_of_no_error (errorOf_ldm_of_le hin), fun r hr => ?loaded, fun r hr => ?kept, rfl, rfl,
    sameMemory_of_mem_eq rfl⟩
  case loaded => exact (hreg r).trans (if_pos (Nat.lt_succ_of_le hr))
  case kept => exact (hreg r).trans (if_neg (Nat.not_lt.mpr hr))

/-- Settles O52: the conditions are those of the three errors. -/
theorem blockAccessOutOfRangeRaises : Obligations.BlockAccessOutOfRangeRaises :=
  fun _ _ => ⟨fun hout => exec_of_error (if_pos hout),
    fun hout => ⟨exec_of_error (if_pos hout), exec_of_error (if_pos hout)⟩⟩

/-- Settles O53: LDM loads what stands where STM stored, from the same I. -/
theorem stmLdmRoundTrip : Obligations.StmLdmRoundTrip := by
  intro x s t u hm hin hexec hindex hstands
  obtain ⟨-, hstm⟩ := stmStoresRegisters x s
  obtain ⟨t', hexec', hstored, -, honly, -⟩ := hstm hm hin
  obtain rfl : t' = t := by simpa [hexec'] using hexec
  have ht : t'.index = s.index := by rw [honly]
  obtain ⟨-, hldm⟩ := ldmLoadsRegisters x u
  obtain ⟨w, hload, hloaded, -⟩ := hldm (by rw [hindex, ht]; exact hin)
  refine ⟨w, hload, fun r hr => ?_⟩
  have haddr : u.dataAddr r.toNat = t'.dataAddr r.toNat := by rw [State.dataAddr, State.dataAddr, hindex]
  have haddr' : t'.dataAddr r.toNat = s.dataAddr r.toNat := by rw [State.dataAddr, State.dataAddr, ht]
  rw [hloaded r hr, haddr, hstands r.toNat hr, haddr', hstored r hr]

end Sys2Proof.Machine
end

section
/-! The families 45_keys_timers.md and 46_unknown.md, continued: SKNP (R181), WAIT_KEY (R183), SET_DT and SET_ST
(R184, R185) and the Unknown class (R190). -/

namespace Sys2Proof.Machine

open Sys2Proof.Frame

/-- Settles O55: a released key makes both halves of SKNP's condition true, a pressed key makes the second false,
and a V[X] of 16 or more the first. -/
theorem sknpSkipsOnReleasedKey : Obligations.SknpSkipsOnReleasedKey := by
  refine fun x s => ⟨decode_encode (i := .sknp x) rfl, _, exec_of_no_error (i := .sknp x) rfl, onlyPc_skipIf s _,
    ?released, ?pressed, ?noKey⟩
  case released =>
    exact fun hkey hup =>
      skipIf_pc_of_true (Bool.and_eq_true_iff.mpr ⟨(isKey_iff _).mpr hkey, congrArg not hup⟩)
  case pressed =>
    exact fun _ hdown => skipIf_pc_of_false (Bool.and_eq_false_iff.mpr (.inr (congrArg not hdown)))
  case noKey =>
    exact fun hge => skipIf_pc_of_false (Bool.and_eq_false_iff.mpr (.inl ((isKey_eq_false_iff _).mpr hge)))

/-- Settles O57: each effect writes its timer and advances. -/
theorem setTimersWriteTimers : Obligations.SetTimersWriteTimers :=
  fun x _ => ⟨decode_encode (i := .setDt x) rfl, decode_encode (i := .setSt x) rfl,
    ⟨_, exec_of_no_error (i := .setDt x) rfl, rfl, rfl, rfl, rfl, sameMemory_of_mem_eq rfl⟩,
    ⟨_, exec_of_no_error (i := .setSt x) rfl, rfl, rfl, rfl, rfl, sameMemory_of_mem_eq rfl⟩⟩

/-- Settles O58: the least pressed key is the one taken, and with no key pressed the machine waits. -/
theorem waitKeyTakesLowestKey : Obligations.WaitKeyTakesLowestKey := by
  refine fun x s => ⟨decode_encode (i := .waitKey x) rfl, fun k hk hdown hleast => ?taken, fun hnone => ?waits⟩
  case taken =>
    refine ⟨_, exec_waitKey_of_some s x k (lowestKey_some s.keys k hk hdown hleast), ?_, setReg_advance_pc s x _,
      onlyRegs_setReg_advance s x _⟩
    rw [reg_setReg_advance, BitVec.toNat_ofNat]
    omega
  case waits =>
    exact ⟨_, exec_waitKey_of_none s x ((lowestKey_none s.keys).mpr hnone), rfl, rfl, rfl, sameMemory_of_mem_eq rfl⟩

/-- Settles O59: the word decodes to Unknown by `decode_unknown_iff`; the effect reports it and advances. -/
theorem unknownReportsAndContinues : Obligations.UnknownReportsAndContinues :=
  fun w _ hnorow => ⟨(decode_unknown_iff w).mpr hnorow, _, exec_of_no_error (i := .unknown w) rfl, rfl, rfl, rfl, rfl,
    sameMemory_of_mem_eq rfl⟩

end Sys2Proof.Machine
end
